-- ==== Sys2Proof/Word.lean ====
section
/-! DEFINITION. The words of the block: bytes, byte strings and the opaque capture timestamp.
Bits are numbered as `00_scope.md` R7 says: a frame index counts from the first bit of the frame, a value bit number
counts from the least significant bit. -/

namespace Sys2Proof

/-- An unsigned 8-bit value. -/
abbrev Byte := BitVec 8

/-- A byte string, first byte first (`30_encoding.md` R37). -/
abbrev Str := List Byte

/-- A type, to be the parameter `Timestamp`. -/
class TimestampCarrier where
  Carrier : Type

/-- The type with what Lean needs to hold its values in a state that can be compared and printed: a test of equality (a field
of the linear order; the order itself is used nowhere), a printed form, an element. Every nonempty type can be given
these, so they single none out. DESIGN CHOICE, safe (log 9). -/
class TimestampType extends TimestampCarrier, LinearOrder Carrier, Repr Carrier, Inhabited Carrier

/-- A type parameter: some `TimestampType`, of which nothing is known. -/
opaque Config.timestampTypeOf [Inhabited TimestampType] : TimestampType

/-- The parameter `Timestamp` as a type with its equality: OPEN (`92_eei_decisions.md` D17). That there is such a type at all is
shown by the one-element type; that the parameter is that one cannot be proved. -/
@[reducible] def Config.timestampType : TimestampType :=
  @Config.timestampTypeOf ⟨{ Carrier := Unit, toLinearOrder := inferInstance, toRepr := inferInstance, default := () }⟩

/-- The opaque type `Timestamp` of `00_scope.md` R6, any nonempty type. The block only stores its values and passes them
through (`10_state.md` R14). -/
abbrev Timestamp : Type := Config.timestampType.Carrier

end Sys2Proof
end

