-- ==== Sys2Proof/Syntax.lean ====
section
/-! DEFINITION. The syntax of requests: the frame types, the sixteen operations of `30_encoding.md` R40 with their operands,
and the request as it stands on the port. -/

namespace Sys2Proof

/-- SondeType, the closed set of `10_state.md` R13, in the document's order (`30_encoding.md` R38). -/
inductive SondeType where
  | unknown          -- `Unknown`
  | meteomodemUnknown -- `MeteomodemUnknown`: sync matched, sub-model undetermined
  | meteomodemM10    -- `MeteomodemM10`
  | meteomodemM2K2   -- `MeteomodemM2K2`
  | vaisalaRS41SG    -- `VaisalaRS41SG`
  deriving DecidableEq, Repr

/-- One constructor per row of the opcode table, with the operands of `30_encoding.md` R35.
Addresses are natural numbers because every sum and product over them is exact (`92_eei_decisions.md` D8);
`WellFormed` says which of them fit the request word. -/
inductive Instr where
  | construct (hint : BitVec 3) (tsIn : Timestamp) -- 0x00 CONSTRUCT hint, ts
  | read (bitOffset width : Nat)                    -- 0x01 READ bit_offset, width
  | descr (byteIndex : Nat)                         -- 0x02 DESCR byte_index
  | xorm (index : Nat) (value : Byte)               -- 0x03 XORM index, value
  | length                                          -- 0x04 LENGTH
  | isvalid                                         -- 0x05 ISVALID
  | recvat                                          -- 0x06 RECVAT
  | type                                            -- 0x07 TYPE
  | typestr                                         -- 0x08 TYPESTR
  | alt                                             -- 0x09 ALT
  | lat                                             -- 0x0A LAT
  | lon                                             -- 0x0B LON
  | vbat                                            -- 0x0C VBAT
  | serial                                          -- 0x0D SERIAL
  | crcok                                           -- 0x0E CRCOK
  | symfmt                                          -- 0x0F SYMFMT
  deriving DecidableEq, Repr

/-- A request (`30_encoding.md` R34, R36): the 45-bit word and the side input `ts_in`, which every operation but
CONSTRUCT ignores. -/
structure Request where
  word : BitVec 45
  tsIn : Timestamp
  deriving DecidableEq, Repr

end Sys2Proof
end

