-- ==== Sys2Proof/WellFormed.lean ====
section
/-! DEFINITION. Which instructions fit a request word: each operand lies in the range of its field (`30_encoding.md` R34, R35).
Values inside a field that the document does not contemplate (a READ width outside `1..32`, a reserved hint) are well formed:
they are encodings with a defined result (`30_encoding.md` R42). -/

namespace Sys2Proof

/-- Every operand fits its field: 32 bits of `A`, 8 bits of `B`. -/
def Instr.wellFormed : Instr → Bool
  | .construct _ _ => true
  | .read bitOffset width => decide (bitOffset < 2 ^ 32) && decide (width < 2 ^ 8)
  | .descr byteIndex => decide (byteIndex < 2 ^ 32)
  | .xorm index _ => decide (index < 2 ^ 32)
  | .length => true
  | .isvalid => true
  | .recvat => true
  | .type => true
  | .typestr => true
  | .alt => true
  | .lat => true
  | .lon => true
  | .vbat => true
  | .serial => true
  | .crcok => true
  | .symfmt => true

end Sys2Proof
end

