-- ==== Sys2Proof/Decode.lean ====
section
/-! DEFINITION. The request word of `30_encoding.md` R34: fields, decoder, encoder, and the reading of a word as the opcode table
numbers it. -/

namespace Sys2Proof

/-- `op`, bits 44..40. -/
def fieldOp (w : BitVec 45) : BitVec 5 := w.extractLsb' 40 5

/-- `A`, bits 39..8, the first operand. -/
def fieldA (w : BitVec 45) : BitVec 32 := w.extractLsb' 8 32

/-- `B`, bits 7..0, the second operand. -/
def fieldB (w : BitVec 45) : BitVec 8 := w.extractLsb' 0 8

/-- Why a word is no instruction. -/
inductive DecodeError where
  /-- Operation codes 0x10 to 0x1F select no operation (`30_encoding.md` R41). Raised by `decode`; `step` then gives the
  all-default response, so nothing stops. -/
  | reservedOp (op : BitVec 5)
  deriving DecidableEq, Repr

/-- The operation of a request: `op` alone selects (`30_encoding.md` R40), operands are assembled as R35 says, and the
fields R35 calls ignored are not looked at. -/
def decode (r : Request) : Except DecodeError Instr :=
  match (fieldOp r.word).toNat with
  | 0x00 => .ok (.construct ((fieldA r.word).extractLsb' 0 3) r.tsIn)
  | 0x01 => .ok (.read (fieldA r.word).toNat (fieldB r.word).toNat)
  | 0x02 => .ok (.descr (fieldA r.word).toNat)
  | 0x03 => .ok (.xorm (fieldA r.word).toNat (fieldB r.word))
  | 0x04 => .ok .length
  | 0x05 => .ok .isvalid
  | 0x06 => .ok .recvat
  | 0x07 => .ok .type
  | 0x08 => .ok .typestr
  | 0x09 => .ok .alt
  | 0x0A => .ok .lat
  | 0x0B => .ok .lon
  | 0x0C => .ok .vbat
  | 0x0D => .ok .serial
  | 0x0E => .ok .crcok
  | 0x0F => .ok .symfmt
  | _ => .error (.reservedOp (fieldOp r.word))

/-- `req = op * 2^40 + A * 2^8 + B` (`30_encoding.md` R34): the three fields side by side. -/
def requestWord (op : BitVec 5) (a : BitVec 32) (b : BitVec 8) : BitVec 45 := (op ++ a) ++ b

/-- The operation codes of `30_encoding.md` R40. -/
def opcode : Instr → BitVec 5
  | .construct _ _ => 0x00
  | .read _ _ => 0x01
  | .descr _ => 0x02
  | .xorm _ _ => 0x03
  | .length => 0x04
  | .isvalid => 0x05
  | .recvat => 0x06
  | .type => 0x07
  | .typestr => 0x08
  | .alt => 0x09
  | .lat => 0x0A
  | .lon => 0x0B
  | .vbat => 0x0C
  | .serial => 0x0D
  | .crcok => 0x0E
  | .symfmt => 0x0F

/-- The first operand as `A` (`30_encoding.md` R35); 0 where the operation ignores it (log 13). -/
def operandA : Instr → BitVec 32
  | .construct hint _ => hint.setWidth 32
  | .read bitOffset _ => BitVec.ofNat 32 bitOffset
  | .descr byteIndex => BitVec.ofNat 32 byteIndex
  | .xorm index _ => BitVec.ofNat 32 index
  | .length => 0
  | .isvalid => 0
  | .recvat => 0
  | .type => 0
  | .typestr => 0
  | .alt => 0
  | .lat => 0
  | .lon => 0
  | .vbat => 0
  | .serial => 0
  | .crcok => 0
  | .symfmt => 0

/-- The second operand as `B` (`30_encoding.md` R35); 0 where the operation ignores it (log 13). -/
def operandB : Instr → BitVec 8
  | .construct _ _ => 0
  | .read _ width => BitVec.ofNat 8 width
  | .descr _ => 0
  | .xorm _ value => value
  | .length => 0
  | .isvalid => 0
  | .recvat => 0
  | .type => 0
  | .typestr => 0
  | .alt => 0
  | .lat => 0
  | .lon => 0
  | .vbat => 0
  | .serial => 0
  | .crcok => 0
  | .symfmt => 0

/-- The side input of an instruction: CONSTRUCT's timestamp; every other operation ignores it (`30_encoding.md` R36),
and some timestamp stands there (log 13). -/
def sideInput : Instr → Timestamp
  | .construct _ tsIn => tsIn
  | .read _ _ => default
  | .descr _ => default
  | .xorm _ _ => default
  | .length => default
  | .isvalid => default
  | .recvat => default
  | .type => default
  | .typestr => default
  | .alt => default
  | .lat => default
  | .lon => default
  | .vbat => default
  | .serial => default
  | .crcok => default
  | .symfmt => default

/-- The request that stands for an instruction, its ignored fields 0. -/
def encode (i : Instr) : Request := ⟨requestWord (opcode i) (operandA i) (operandB i), sideInput i⟩

/-- A word of the opcode table as a request. The port has 45 bits (`30_encoding.md` R34); the table's numbering is the
request's own, one word, bit 0 least significant. `ts_in` is no part of the word: some timestamp stands for it
(log 13). -/
def tableRequest (w : Nat) : Request := ⟨BitVec.ofNat 45 w, default⟩

/-- The instruction the decoder reads from a word of the opcode table. A request has one length (`30_encoding.md` R34), so
`nbits`, the row's bits in whole bytes, selects nothing. -/
def decodeTableWord (nbits w : Nat) : Option Instr :=
  match nbits, decode (tableRequest w) with
  | _, .ok i => some i
  | _, .error _ => none

end Sys2Proof
end

