-- ==== Sys2Proof/Config.lean ====
section
/-! DEFINITION. What the spec leaves to the implementation (`00_scope.md` R6, rows marked OPEN) and the free values. None of these
constants has a body, so no proof can learn a value and every theorem holds for all of them. The type parameter `Timestamp`
stands in Word.lean, because the syntax needs it. -/

namespace Sys2Proof.Config

/-- `MASK`, the 64-byte descramble table: contents OPEN (`92_eei_decisions.md` D21). `State.reset` puts it into the
mask ROM; every rule is stated over the ROM of any state. Safe (log 7). -/
opaque mask : Vector Byte 64

/-- `TYPE_NAME[t]`, the human-readable variant names: OPEN (`92_eei_decisions.md` D16). Used for M10, M2K2 and RS41SG
only. Safe (log 8). -/
opaque typeName : SondeType → Str

/-- `PREVIEW_PREFIX` of TYPESTR's fallback: OPEN (`92_eei_decisions.md` D16). Safe (log 8). -/
opaque previewPrefix : Str

/-- `PREVIEW_CHARS`, how many characters of the dump the fallback shows: OPEN (`92_eei_decisions.md` D16). Safe (log 8). -/
opaque previewChars : Nat

/-- What `TS` holds after reset: unspecified (`10_state.md` R14, R19), and a RECVAT that reads it may return any value
(`70_reset_and_hazards.md` R117). DESIGN CHOICE, unsafe in one point: every read before the first CONSTRUCT gives this one unknown
value (log 5). -/
opaque tsAtReset : Timestamp

/-- What an operation reads of the state, by the line 'State read' of its rule: of each item its value, or `none` where the
operation does not read it. `TS` is none of the items: RECVAT alone reads it, and passes it through (`10_state.md` R14). -/
structure StateRead where
  /-- `TYPE` -/
  sondeType : Option SondeType := none
  /-- `N` -/
  frameLen : Option (BitVec 32) := none
  /-- `F[0]` to `F[N-1]` -/
  frame : Option (List Bool) := none
  /-- `MASK` -/
  mask : Option (Vector Byte 64) := none
  deriving DecidableEq, Repr

/-- The `ts` field of a response whose rule does not name it: unspecified (`30_encoding.md` R37), but like the rest of the
response a function of the request and of what the operation reads (`10_state.md` R17, `43_field_table.md` R91). A free
value. DESIGN CHOICE, safe (log 6). -/
opaque freeTs (request : Request) (read : StateRead) : Timestamp

/-- How a timestamp is written in an operation's text (`30_encoding.md` R43 writes `ts0`; no spelling is given): a free value.
DESIGN CHOICE, safe (log 19). -/
opaque timestampText : Timestamp → Str

end Sys2Proof.Config
end

