-- ==== Sys2Proof/Machine/State.lean ====
section
/-! DEFINITION. The state of one instance of the block, its faults and refusals, and the state after reset
(`10_state.md`, `30_encoding.md` R37, `70_reset_and_hazards.md` R117). -/

namespace Sys2Proof.Machine

/-- The frame's bytes: byte `k`, bits `F[8k] .. F[8k+7]` (`20_memory.md` R20), as a list of cells with rising byte
addresses and no cell that holds what an unlisted address reads as (log 2). -/
abbrev Memory := List Host.Cell

/-- The response record of `30_encoding.md` R37. -/
structure Response where
  /-- the numeric result, exact; 64-bit two's complement on a port -/
  val : Int
  /-- the textual result -/
  str : Str
  /-- the error string, always empty (`45_packet_facade.md` R104) -/
  err : Str
  /-- the timestamp result: set by RECVAT only, else unspecified (log 6) -/
  ts : Timestamp
  deriving DecidableEq, Repr

/-- Everything one instance holds, with what the host has bound and presented. -/
structure State where
  /-- `TYPE`, the resolved frame type (`10_state.md` R13) -/
  sondeType : SondeType
  /-- `TS`, the capture timestamp (`10_state.md` R14) -/
  ts : Timestamp
  /-- `N`, the length in bits of the bound frame, 32 bits wide (`10_state.md` R11) -/
  frameLen : BitVec 32
  /-- `F`, the contents of the bound frame (`10_state.md` R10) -/
  mem : Memory
  /-- `MASK`, the descrambler's ROM (`10_state.md` R12) -/
  mask : Vector Byte 64
  /-- the requests the host presents, the next one first (`30_encoding.md` R33; log 3) -/
  pending : List Request
  /-- the response to the last request answered (`30_encoding.md` R37; log 4) -/
  resp : Option Response
  deriving DecidableEq, Repr

/-- Faults. There is none: the block raises no exception and every error condition has a defined result
(`60_exceptions.md` R113, R115). -/
inductive Fault where
  deriving DecidableEq, Repr

/-- Refusals. -/
inductive Refusal where
  /-- An instruction without a meaning, by its mnemonic. Raised by an arm of `exec` that has no meaning yet; none is left,
  so no state answers it. Safe: the model would stop where the hardware goes on. -/
  | notModelled (mnemonic : String)
  deriving DecidableEq, Repr

/-- The instance right after reset (`10_state.md` R19, `70_reset_and_hazards.md` R117): `TYPE` is `Unknown`, no frame is
bound so `N = 0`, the mask ROM has its constant contents and no request is presented. `TS` is unspecified: it holds a
value nothing is known of (log 5). -/
def State.reset : State where
  sondeType := .unknown
  ts := Config.tsAtReset
  frameLen := 0
  mem := []
  mask := Config.mask
  pending := []
  resp := none

end Sys2Proof.Machine
end

