-- ==== Sys2Proof/Machine/Ops.lean ====
section
/-! DEFINITION. The named operations over the frame, the mask, the registers and the ports, which every meaning uses.
There is no operation that takes an exception and none that returns from one: the block has no exception, trap, interrupt or
mode (`60_exceptions.md` R111 to R115). -/

namespace Sys2Proof.Machine

/-! ### The frame space -/

/-- What a byte that no cell lists reads as. DESIGN CHOICE, unsafe (log 2). -/
def Memory.unlisted : Byte := 0x00

/-- The byte at a byte address. -/
def Memory.read : Memory → Nat → Byte
  | [], _ => Memory.unlisted
  | (k, b) :: rest, a => if k = a then b else Memory.read rest a

/-- The canonical form: addresses strictly rise and no cell holds what an unlisted address reads as. -/
abbrev Memory.wf (m : Memory) : Prop :=
  m.Pairwise (fun c d => c.1 < d.1) ∧ ∀ c ∈ m, c.2 ≠ Memory.unlisted

/-- Puts a byte at an address and keeps the canonical form. No operation of the block writes (`20_memory.md` R21); the
host's binding of a frame is the only user. -/
def Memory.write : Memory → Nat → Byte → Memory
  | [], a, b => if b = Memory.unlisted then [] else [(a, b)]
  | (k, c) :: rest, a, b =>
    if k < a then (k, c) :: Memory.write rest a b
    else if k = a then (if b = Memory.unlisted then rest else (a, b) :: rest)
    else if b = Memory.unlisted then (k, c) :: rest else (a, b) :: (k, c) :: rest

/-- `N`, the frame length in bits (`10_state.md` R11), as an exact integer. -/
def State.N (s : State) : Nat := s.frameLen.toNat

/-- `F[i]`: bit `i` of the frame, its byte's most significant bit first (`00_scope.md` R7). Rules look at it only for
`i < N`. -/
def State.F (s : State) (i : Nat) : Bool := (Memory.read s.mem (i / 8)).getMsbD (i % 8)

/-- `F` and `N` as one list, `F[0]` first. -/
def State.frameBits (s : State) : List Bool := (List.range s.N).map s.F

/-- The loop of `40_bitfield_extractor.md` R45: `v = (v << 1) | F[off]`, `w` times, `off` rising. -/
def State.gather (s : State) : (off w v : Nat) → Nat
  | _, 0, v => v
  | off, w + 1, v => State.gather s (off + 1) w (2 * v + (s.F off).toNat)

/-- `BR(off, w)`, also `MemRead` (`40_bitfield_extractor.md` R45, R46): the only read primitive. The sum `off + w` is exact,
and a span that does not end within the frame reads as 0 as a whole. -/
def State.BR (s : State) (off w : Nat) : Nat := if off + w > s.N then 0 else s.gather off w 0

/-- `Byte(k)`, the raw frame byte, one 8-bit read (`20_memory.md` R23). -/
def State.byte (s : State) (k : Nat) : Nat := s.BR (8 * k) 8

/-! ### The descrambler -/

/-- `RawByte(k)` by the loop of `41_xor_descrambler.md` R56: eight one-bit reads, each bound-checked on its own (R53). -/
def State.rawByte (s : State) (k : Nat) : Byte :=
  BitVec.ofNat 8 ((List.range 8).foldl (fun raw j => 2 * raw + s.BR (8 * k + j) 1) 0)

/-- `Descr(i, v) = v xor MASK[(i + 4) mod 64]`, the sum exact (`41_xor_descrambler.md` R54). -/
def State.descramble (s : State) (i : Nat) (v : Byte) : Byte :=
  v ^^^ s.mask[(i + 4) % 64]'(Nat.mod_lt _ (by decide))

/-- `D(k)`, the descrambled frame byte (`41_xor_descrambler.md` R55). -/
def State.D (s : State) (k : Nat) : Byte := s.descramble k (s.rawByte k)

/-! ### What an operation reads -/

/-- One entry for each type; the two unsupported types (`42_format_dispatch.md` R68) share one. -/
def byType {α : Type} (unsupported m10 m2k2 rs41 : α) : SondeType → α
  | .unknown => unsupported
  | .meteomodemUnknown => unsupported
  | .meteomodemM10 => m10
  | .meteomodemM2K2 => m2k2
  | .vaisalaRS41SG => rs41

/-- Reading `F` and `N`. -/
def State.readFrame (s : State) : Config.StateRead := { frameLen := some s.frameLen, frame := some s.frameBits }

/-- Reading `F`, `N` and `MASK`. -/
def State.readDescrambled (s : State) : Config.StateRead := { s.readFrame with mask := some s.mask }

/-- Reading `TYPE`, and by its value what else. -/
def State.readByType (s : State) (unsupported m10 m2k2 rs41 : Config.StateRead) : Config.StateRead :=
  { byType unsupported m10 m2k2 rs41 s.sondeType with sondeType := some s.sondeType }

/-- The lines 'State read' of the operations' rules, with R47, R63, R68, R74, R79, R82 and R97 for the cases in which no frame bit
is read. RECVAT's `TS` is not listed: its response names it. -/
def State.reads (s : State) : Instr → Config.StateRead
  | .construct hint _ => if hint = 1 then s.readFrame else {}
  | .read _ width => if width < 1 ∨ width > 32 then {} else s.readFrame
  | .descr _ => s.readDescrambled
  | .xorm _ _ => { mask := some s.mask }
  | .length => { frameLen := some s.frameLen }
  | .isvalid => {}
  | .recvat => {}
  | .type => s.readByType {} {} {} {}
  | .typestr => s.readByType s.readDescrambled {} {} {}
  | .alt => s.readByType {} s.readFrame s.readFrame s.readDescrambled
  | .lat => s.readByType {} s.readFrame s.readFrame {}
  | .lon => s.readByType {} s.readFrame s.readFrame {}
  | .vbat => s.readByType {} s.readFrame s.readFrame s.readDescrambled
  | .serial => s.readByType {} s.readFrame s.readFrame s.readDescrambled
  | .crcok => s.readByType {} s.readFrame {} {}
  | .symfmt => s.readDescrambled

/-! ### Registers and ports -/

/-- `TYPE <- t`, `TS <- v`: the one write of registers there is (`42_format_dispatch.md` R61). -/
def State.latch (s : State) (t : SondeType) (v : Timestamp) : State := { s with sondeType := t, ts := v }

/-- Gives a response. -/
def State.answer (s : State) (r : Response) : State := { s with resp := some r }

/-- `resp(val, str, err, ts)`: all four fields of a response. -/
def State.respond (s : State) (ts : Timestamp) (val : Int) (str err : Str) : State :=
  s.answer { val := val, str := str, err := err, ts := ts }

/-- The `ts` of the response to an operation that does not name it (`30_encoding.md` R37, log 6). In the request the fields
the operation ignores are 0, since no response depends on them (R35, R36). -/
def State.freeTs (s : State) (i : Instr) : Timestamp := Config.freeTs (encode i) (s.reads i)

/-- `resp(val = v)`. -/
def State.respondVal (s : State) (i : Instr) (v : Int) : State := s.respond (s.freeTs i) v [] []

/-- `resp(str = t)`. -/
def State.respondStr (s : State) (i : Instr) (t : Str) : State := s.respond (s.freeTs i) 0 t []

/-- `resp()`, all fields default. -/
def State.respondDefault (s : State) (i : Instr) : State := s.respond (s.freeTs i) 0 [] []

/-- `resp(ts = v)`. -/
def State.respondTs (s : State) (v : Timestamp) : State := s.respond v 0 [] []

/-- The unspecified `ts` of the response to a reserved operation code, which reads nothing. `A`, `B` and `ts_in` are
ignored, as `30_encoding.md` R35 and R36 say of all other operations (log 6). -/
def reservedTs (op : BitVec 5) : Timestamp := Config.freeTs ⟨requestWord op 0 0, default⟩ {}

/-- What a reserved operation code does: no state change, the all-default response, no trap (`30_encoding.md` R41). -/
def execReserved (op : BitVec 5) (s : State) : Host.Outcome State Fault Refusal :=
  .next (s.respond (reservedTs op) 0 [] [])

/-- Taking the presented request off the port, the request after it becoming the next (`30_encoding.md` R33). -/
def State.accept (s : State) (rest : List Request) : State := { s with pending := rest }

/-- Presenting a request before those that already wait. -/
def State.present (s : State) (r : Request) : State := { s with pending := r :: s.pending }

/-! ### The host's binding of a frame -/

/-- The part of frame byte `k` that lies in a frame of `n` bits, the rest 0. -/
def clipByte (n k : Nat) (b : Byte) : Byte := b &&& (0xFF#8 <<< (8 - (n - 8 * k)))

/-- Bytes written to rising addresses from `k` on, each clipped to the frame. -/
def loadBytes (n : Nat) : Memory → Nat → List Byte → Memory
  | m, _, [] => m
  | m, k, b :: rest => loadBytes n (Memory.write m k (clipByte n k b)) (k + 1) rest

/-- The host binds a frame of `n` bits given by its bytes, byte 0 first (`70_reset_and_hazards.md` R118 step 2). Nothing else
changes: `TYPE` keeps what it holds (R121 (a)). DESIGN CHOICE (log 17). -/
def State.bindFrame (s : State) (n : BitVec 32) (bytes : List Byte) : State :=
  { s with frameLen := n, mem := loadBytes n.toNat [] 0 bytes }

end Sys2Proof.Machine
end

