-- ==== Sys2Proof/Machine/Operands.lean ====
section
/-! DEFINITION. Type codes and the text forms of values: `30_encoding.md` R38, R39 and the notation of `00_scope.md` R8. -/

namespace Sys2Proof.Machine

/-- The code of a type on a port (`30_encoding.md` R38). -/
def typeCode : SondeType → Nat
  | .unknown => 0
  | .meteomodemUnknown => 1
  | .meteomodemM10 => 2
  | .meteomodemM2K2 => 3
  | .vaisalaRS41SG => 4

/-- The type a hint code names; the reserved codes 5, 6, 7 are taken as `Unknown` (`30_encoding.md` R39). -/
def typeOfHint (hint : BitVec 3) : SondeType :=
  match hint.toNat with
  | 1 => .meteomodemUnknown
  | 2 => .meteomodemM10
  | 3 => .meteomodemM2K2
  | 4 => .vaisalaRS41SG
  | _ => .unknown

/-- The space, 0x20. -/
def space : Byte := 0x20

/-- The one-byte string `"?"` (`00_scope.md` R8). -/
def questionMark : Str := [0x3F]

/-- `hexdigit(d)` for `d <= 15`: `0..9`, then upper-case `A..F`. -/
def hexdigit (d : Nat) : Byte := if d < 10 then BitVec.ofNat 8 (0x30 + d) else BitVec.ofNat 8 (0x41 + (d - 10))

/-- `hex2(b)`: two digits, the high nibble first. -/
def hex2 (b : Byte) : Str := [hexdigit (b.toNat / 16), hexdigit (b.toNat % 16)]

/-- The decimal digits of `v` put before `acc`; `fuel` bounds the number of digits. -/
def numeralOnto : (fuel v : Nat) → Str → Str
  | 0, _, acc => acc
  | fuel + 1, v, acc =>
    if v < 10 then BitVec.ofNat 8 (0x30 + v) :: acc
    else numeralOnto fuel (v / 10) (BitVec.ofNat 8 (0x30 + v % 10) :: acc)

/-- The decimal numeral of `v`. -/
def numeral (v : Nat) : Str := numeralOnto (v + 1) v []

/-- `dec(v, w)`: the numeral left-padded with `0` to at least `w` characters, never truncated. -/
def dec (v w : Nat) : Str := List.replicate (w - (numeral v).length) 0x30 ++ numeral v

end Sys2Proof.Machine
end

