-- ==== Sys2Proof/Machine/Flags.lean ====
section
/-! DEFINITION. The block has no flags, condition codes or predicates and latches no error (`10_state.md` R17). What it has are
the truth values an operation delivers in `val` and the one value test of the field rules. -/

namespace Sys2Proof.Machine

/-- A verdict as `val`: 1 is the document's `true`, 0 its `false` (`44_checksum_validator.md` R93). -/
def verdict (b : Bool) : Int := if b then 1 else 0

/-- Printable ASCII, both bounds inclusive (`43_field_table.md` R89). -/
def printable (b : Byte) : Bool := decide (32 ≤ b.toNat) && decide (b.toNat ≤ 126)

end Sys2Proof.Machine
end

