-- ==== Sys2Proof/Machine/Checksum.lean ====
section
/-! DEFINITION. The checksum validator, CRCOK (`44_checksum_validator.md`). -/

namespace Sys2Proof.Machine

/-- `bitk(cs)`, value bit `k` of the accumulator, as a 16-bit value. -/
def bitOf (cs : BitVec 16) (k : Nat) : BitVec 16 := (cs >>> k) &&& 1#16

/-- `Step(cs, bit)` (R95), the document's six steps to the letter; it is not to be simplified
(`93_implementation_defined.md` U1). Every stage fits 16 bits, so the words lose nothing. DEDUCED, safe (log 20). -/
def crcStep (cs : BitVec 16) (bit : Bool) : BitVec 16 :=
  let c1 := cs &&& 0xFF#16
  let b0 : BitVec 16 := if bit then 1#16 else 0#16
  let b1 := (b0 >>> 1) ||| ((b0 &&& 1#16) <<< 7)
  let b2 := b1 ^^^ ((b1 >>> 2) &&& 0xFF#16)
  let t6 := bitOf cs 0 ^^^ bitOf cs 2 ^^^ bitOf cs 4
  let t7 := bitOf cs 1 ^^^ bitOf cs 3 ^^^ bitOf cs 5
  let t := (cs &&& 0x3F#16) ||| (t6 <<< 6) ||| (t7 <<< 7)
  let s0 := (cs >>> 7) &&& 0xFF#16
  let s1 := s0 ^^^ ((s0 >>> 2) &&& 0xFF#16)
  let c0 := b2 ^^^ t ^^^ s1
  ((c1 <<< 8) ||| c0) &&& 0xFFFF#16

/-- `Cs(i)` (R95): the accumulator after the first `i` bits, taken in ascending order from 0. -/
def State.cs (s : State) : Nat → BitVec 16
  | 0 => 0
  | i + 1 => crcStep (s.cs i) (s.F i)

/-- `Check()` (R96): two raw 8-bit reads, big-endian. -/
def State.check (s : State) : Nat := s.byte 0x63 * 256 + s.byte 0x64

/-- `CrcM10()` (R94). -/
def State.crcM10 (s : State) : Bool := decide ((s.cs s.N).toNat = s.check)

/-- The verdict by type (R93): every type but M10 is fail-closed, 0 meaning "not verified" (R97). -/
def State.crcVerdict (s : State) : Int :=
  match s.sondeType with
  | .meteomodemM10 => verdict s.crcM10
  | .unknown => 0
  | .meteomodemUnknown => 0
  | .meteomodemM2K2 => 0
  | .vaisalaRS41SG => 0

/-- CRCOK (R93). -/
def execCrcok (s : State) : Host.Outcome State Fault Refusal := .next (s.respondVal .crcok s.crcVerdict)

end Sys2Proof.Machine
end

