-- ==== Sys2Proof/Machine/Descrambler.lean ====
section
/-! DEFINITION. The XOR descrambler's operations, DESCR and XORM (`41_xor_descrambler.md`). -/

namespace Sys2Proof.Machine

/-- DESCR (R56): the descrambled byte, whatever the type and wherever the byte lies (R59). -/
def execDescr (byteIndex : Nat) (s : State) : Host.Outcome State Fault Refusal :=
  .next (s.respondVal (.descr byteIndex) (s.D byteIndex).toNat)

/-- XORM (R57): the mask alone, no frame bit read. -/
def execXorm (index : Nat) (value : Byte) (s : State) : Host.Outcome State Fault Refusal :=
  .next (s.respondVal (.xorm index value) (s.descramble index value).toNat)

end Sys2Proof.Machine
end

