-- ==== Sys2Proof/Machine/Extractor.lean ====
section
/-! DEFINITION. The bitfield extractor's operation, READ (`40_bitfield_extractor.md`). -/

namespace Sys2Proof.Machine

/-- READ (R48): the width is tested before the range (`60_exceptions.md` R114), and a width outside `1..32` gives 0 without
a read (R47). -/
def execRead (bitOffset width : Nat) (s : State) : Host.Outcome State Fault Refusal :=
  if width < 1 ∨ width > 32 then .next (s.respondVal (.read bitOffset width) 0)
  else .next (s.respondVal (.read bitOffset width) (s.BR bitOffset width))

end Sys2Proof.Machine
end

