-- ==== Sys2Proof/Machine/FieldTable.lean ====
section
/-! DEFINITION. The field table: ALT, LAT, LON, VBAT, SERIAL by resolved type (`43_field_table.md`), and the units of their
numerators (R71). The dispatch is the table of `42_format_dispatch.md` R67. -/

namespace Sys2Proof.Machine

/-! ### Altitude -/

/-- `AltM()` (R73): a 32-bit field at byte 22, unsigned; unit 1/1000 m. -/
def State.altM (s : State) : Int := (s.BR (22 * 8) 32 : Int) - 48000

/-- `Z` of R76: four descrambled bytes at 0x118, accumulated big-endian. -/
def State.altZ (s : State) : Nat := (List.range 4).foldl (fun z j => 256 * z + (s.D (0x118 + j)).toNat) 0

/-- `AltV()` (R76): a placeholder, normative as a computation only (`93_implementation_defined.md` U2). -/
def State.altV (s : State) : Int := (s.altZ : Int) - 48000

/-- The altitude numerator by type (R72). -/
def State.altitude (s : State) : Int :=
  match s.sondeType with
  | .meteomodemM10 => s.altM
  | .meteomodemM2K2 => s.altM
  | .vaisalaRS41SG => s.altV
  | .unknown => 0
  | .meteomodemUnknown => 0

/-- ALT (R72). -/
def execAlt (s : State) : Host.Outcome State Fault Refusal := .next (s.respondVal .alt s.altitude)

/-! ### Latitude and longitude -/

/-- The latitude numerator by type (R77): `LatM()` is the 32-bit field at byte 14 (R78); else 0 (R79). -/
def State.latitude (s : State) : Int :=
  match s.sondeType with
  | .meteomodemM10 => s.BR (14 * 8) 32
  | .meteomodemM2K2 => s.BR (14 * 8) 32
  | .vaisalaRS41SG => 0
  | .unknown => 0
  | .meteomodemUnknown => 0

/-- LAT (R77). -/
def execLat (s : State) : Host.Outcome State Fault Refusal := .next (s.respondVal .lat s.latitude)

/-- The longitude numerator by type (R80): `LonM()` is the 32-bit field at byte 18 (R81); else 0 (R82). -/
def State.longitude (s : State) : Int :=
  match s.sondeType with
  | .meteomodemM10 => s.BR (18 * 8) 32
  | .meteomodemM2K2 => s.BR (18 * 8) 32
  | .vaisalaRS41SG => 0
  | .unknown => 0
  | .meteomodemUnknown => 0

/-- LON (R80). -/
def execLon (s : State) : Host.Outcome State Fault Refusal := .next (s.respondVal .lon s.longitude)

/-! ### Battery -/

/-- `VbatM10()` (R84): two 8-bit reads, little-endian; unit 1/150 mV. -/
def State.vbatM10 (s : State) : Int := ((s.byte 69 + s.byte 70 * 256) * 1000 : Nat)

/-- `VbatM2K2()` (R85): no physical unit is stated. -/
def State.vbatM2K2 (s : State) : Int := (s.byte 69 * 66 : Nat)

/-- `VbatV()` (R86): the multiplier is fixed (`93_implementation_defined.md` U4). -/
def State.vbatV (s : State) : Int := ((s.D 0x41).toNat * 100 : Nat)

/-- The battery numerator by type (R83). -/
def State.battery (s : State) : Int :=
  match s.sondeType with
  | .meteomodemM10 => s.vbatM10
  | .meteomodemM2K2 => s.vbatM2K2
  | .vaisalaRS41SG => s.vbatV
  | .unknown => 0
  | .meteomodemUnknown => 0

/-- VBAT (R83). -/
def execVbat (s : State) : Host.Outcome State Fault Refusal := .next (s.respondVal .vbat s.battery)

/-! ### Serial number -/

/-- `base` of R88: byte 93, in bits. -/
def serialBase : Nat := 93 * 8

/-- `SerialM()` (R88): the five packed fields at byte 93 as eleven characters. -/
def State.serialM (s : State) : Str :=
  let a := s.BR (serialBase + 16) 4
  let b := s.BR (serialBase + 20) 4
  let c := s.BR (serialBase + 4) 4
  let d := s.BR (serialBase + 24) 3
  let e := s.BR (serialBase + 27) 13
  [hexdigit a] ++ dec b 2 ++ [space] ++ [hexdigit c] ++ [space] ++ dec d 1 ++ dec e 4

/-- The eight descrambled bytes at `pos_SondeID` = 57 (R89). -/
def State.serialBytes (s : State) : Str := (List.range 8).map (fun j => s.D (57 + j))

/-- `SerialV()` (R89): all eight bytes, or `"?"` if any of them is not printable. -/
def State.serialV (s : State) : Str := if s.serialBytes.all printable then s.serialBytes else questionMark

/-- The serial number by type (R87, R90). -/
def State.serialNumber (s : State) : Str :=
  match s.sondeType with
  | .meteomodemM10 => s.serialM
  | .meteomodemM2K2 => s.serialM
  | .vaisalaRS41SG => s.serialV
  | .unknown => questionMark
  | .meteomodemUnknown => questionMark

/-- SERIAL (R87). -/
def execSerial (s : State) : Host.Outcome State Fault Refusal := .next (s.respondStr .serial s.serialNumber)

/-! ### Units -/

/-- The physical dimension of a numerator's unit (R71). -/
inductive Dimension where
  | metre
  | degree
  | millivolt
  | notStated -- the M2K2 battery (`91_not_in_source.md` N9)
  deriving DecidableEq, Repr

/-- The units of R71's table, a fixed function of operation and type, carried in no response: the value denoted is
`val` times the scale. `none` where the table says any unit will do (the result is 0) or the operation has no numerator. -/
def fieldUnit : Instr → SondeType → Option (ℚ × Dimension)
  | .alt, .meteomodemM10 => some (1 / 1000, .metre)
  | .alt, .meteomodemM2K2 => some (1 / 1000, .metre)
  | .alt, .vaisalaRS41SG => some (1 / 1000, .metre)
  | .lat, .meteomodemM10 => some (360 / 2 ^ 32, .degree)
  | .lat, .meteomodemM2K2 => some (360 / 2 ^ 32, .degree)
  | .lon, .meteomodemM10 => some (360 / 2 ^ 32, .degree)
  | .lon, .meteomodemM2K2 => some (360 / 2 ^ 32, .degree)
  | .vbat, .meteomodemM10 => some (1 / 150, .millivolt)
  | .vbat, .meteomodemM2K2 => some (1, .notStated)
  | .vbat, .vaisalaRS41SG => some (1, .millivolt)
  | _, _ => none

end Sys2Proof.Machine
end

