-- ==== Sys2Proof/Machine/Facade.lean ====
section
/-! DEFINITION. The facade's operations LENGTH, ISVALID, RECVAT, SYMFMT (`45_packet_facade.md`). -/

namespace Sys2Proof.Machine

/-- `Sym()` (R104): the whole bytes of the frame, descrambled, two hexadecimal digits each; trailing bits are not shown. -/
def State.sym (s : State) : Str := (List.range (s.N / 8)).flatMap (fun k => hex2 (s.D k))

/-- LENGTH (R101): `N`, in bits. -/
def execLength (s : State) : Host.Outcome State Fault Refusal := .next (s.respondVal .length s.N)

/-- ISVALID (R102): always 1; it says nothing of the frame. -/
def execIsvalid (s : State) : Host.Outcome State Fault Refusal := .next (s.respondVal .isvalid 1)

/-- RECVAT (R103): `TS` unchanged. Before the first CONSTRUCT it passes on what reset left there, of which nothing is known
(`70_reset_and_hazards.md` R117: any value may come). DESIGN CHOICE, unsafe in one point (log 5). -/
def execRecvat (s : State) : Host.Outcome State Fault Refusal := .next (s.respondTs s.ts)

/-- SYMFMT (R104): the dump for every type, and the error string, always empty. -/
def execSymfmt (s : State) : Host.Outcome State Fault Refusal := .next (s.respond (s.freeTs .symfmt) 0 s.sym [])

end Sys2Proof.Machine
end

