-- ==== Sys2Proof/Machine/Resolver.lean ====
section
/-! DEFINITION. Format resolution: CONSTRUCT, TYPE, TYPESTR (`42_format_dispatch.md`). -/

namespace Sys2Proof.Machine

/-- `Resolve()` (R62): the 16-bit discriminator at bit 0. -/
def State.resolve (s : State) : SondeType :=
  let d := s.BR 0 16
  if d = 0x649F then .meteomodemM10
  else if d = 0x648F then .meteomodemM2K2
  else .meteomodemUnknown

/-- The type CONSTRUCT stores (R61): only `MeteomodemUnknown` is resolved; any other hint stands as it is, unchecked (R63),
and a reserved code is `Unknown` (R64). -/
def State.typeFor (s : State) (hint : BitVec 3) : SondeType :=
  match typeOfHint hint with
  | .meteomodemUnknown => s.resolve
  | .unknown => .unknown
  | .meteomodemM10 => .meteomodemM10
  | .meteomodemM2K2 => .meteomodemM2K2
  | .vaisalaRS41SG => .vaisalaRS41SG

/-- CONSTRUCT (R61): resolves, writes `TYPE` and `TS` in full, also when issued again (R69). -/
def execConstruct (hint : BitVec 3) (tsIn : Timestamp) (s : State) : Host.Outcome State Fault Refusal :=
  .next ((s.latch (s.typeFor hint) tsIn).respondDefault (.construct hint tsIn))

/-- TYPE (R65): the code of the resolved type. -/
def execType (s : State) : Host.Outcome State Fault Refusal := .next (s.respondVal .type (typeCode s.sondeType))

/-- `type_string()` (R66): the variant's name, or for an unrecognized type the start of the dump. -/
def State.typeString (s : State) : Str :=
  match s.sondeType with
  | .meteomodemM10 => Config.typeName .meteomodemM10
  | .meteomodemM2K2 => Config.typeName .meteomodemM2K2
  | .vaisalaRS41SG => Config.typeName .vaisalaRS41SG
  | .unknown => Config.previewPrefix ++ s.sym.take Config.previewChars
  | .meteomodemUnknown => Config.previewPrefix ++ s.sym.take Config.previewChars

/-- TYPESTR (R66). -/
def execTypestr (s : State) : Host.Outcome State Fault Refusal := .next (s.respondStr .typestr s.typeString)

end Sys2Proof.Machine
end

