-- ==== Sys2Proof/Machine/Dispatch.lean ====
section
/-! DEFINITION. One arm per operation of `30_encoding.md` R40. -/

namespace Sys2Proof.Machine

def exec (i : Instr) (s : State) : Host.Outcome State Fault Refusal :=
  match i with
  | .construct hint tsIn => Sys2Proof.Machine.execConstruct hint tsIn s
  | .read bitOffset width => Sys2Proof.Machine.execRead bitOffset width s
  | .descr byteIndex => Sys2Proof.Machine.execDescr byteIndex s
  | .xorm index value => Sys2Proof.Machine.execXorm index value s
  | .length => Sys2Proof.Machine.execLength s
  | .isvalid => Sys2Proof.Machine.execIsvalid s
  | .recvat => Sys2Proof.Machine.execRecvat s
  | .type => Sys2Proof.Machine.execType s
  | .typestr => Sys2Proof.Machine.execTypestr s
  | .alt => Sys2Proof.Machine.execAlt s
  | .lat => Sys2Proof.Machine.execLat s
  | .lon => Sys2Proof.Machine.execLon s
  | .vbat => Sys2Proof.Machine.execVbat s
  | .serial => Sys2Proof.Machine.execSerial s
  | .crcok => Sys2Proof.Machine.execCrcok s
  | .symfmt => Sys2Proof.Machine.execSymfmt s

end Sys2Proof.Machine
end

