-- ==== Sys2Proof/Machine/Step.lean ====
section
/-! DEFINITION. One step: the presented request is answered, whole (`30_encoding.md` R33, `60_exceptions.md` R109). -/

namespace Sys2Proof.Machine

/-- With no request presented the block waits (`10_state.md` R19; log 3). A presented request is taken off the port, decoded
and executed; a reserved operation code gets the all-default response (`30_encoding.md` R41). -/
def step (s : State) : Host.Outcome State Fault Refusal :=
  match s.pending with
  | [] => .next s
  | r :: rest =>
    match decode r with
    | .ok i => exec i (s.accept rest)
    | .error (.reservedOp op) => execReserved op (s.accept rest)

/-- The word of an opcode-table row, presented as the next request (log 3). The port has 45 bits, so `nbits` selects
nothing. -/
def State.withFetchWord (s : State) (nbits w : Nat) : State :=
  match nbits with
  | _ => s.present (tableRequest w)

end Sys2Proof.Machine
end

