-- ==== Sys2Proof/Safety.lean ====
section
/-! DEFINITION. The terms claims use: what an operation leaves unchanged, what it answers, when it is in-span
(`20_memory.md` R28), and the invariant every step keeps. -/

namespace Sys2Proof.Machine

/-- The frame `t` sees is the frame `s` sees: its length and every byte (`20_memory.md` R21). -/
def SameFrame (s t : State) : Prop :=
  t.frameLen = s.frameLen ∧ ∀ a, Memory.read t.mem a = Memory.read s.mem a

/-- All but the response port is unchanged: both registers, the frame, the mask ROM and what
the host presents next. -/
def OnlyResponseDiffers (s t : State) : Prop :=
  t.sondeType = s.sondeType ∧ t.ts = s.ts ∧ SameFrame s t ∧ t.mask = s.mask ∧ t.pending = s.pending

/-- The operation completes: `exec` answers a next state whose response carries these three fields, and nothing but the
response differs. (`ts` is not named: it is unspecified for every operation but RECVAT, `30_encoding.md` R37.) -/
def Answers (i : Instr) (s : State) (val : Int) (str err : Str) : Prop :=
  ∃ t r, exec i s = .next t ∧ t.resp = some r ∧ r.val = val ∧ r.str = str ∧ r.err = err ∧ OnlyResponseDiffers s t

/-- The operation completes in both states with the same response, as far as the response is specified. -/
def SameAnswer (i : Instr) (s s' : State) : Prop :=
  ∃ t t' r r', exec i s = .next t ∧ exec i s' = .next t' ∧ t.resp = some r ∧ t'.resp = some r' ∧
    r.val = r'.val ∧ r.str = r'.str ∧ r.err = r'.err ∧ (i = .recvat → r.ts = r'.ts)

/-- CONSTRUCT, the only operation that writes state (`42_format_dispatch.md` R61). -/
def isConstruct : Instr → Bool
  | .construct _ _ => true
  | .read _ _ => false
  | .descr _ => false
  | .xorm _ _ => false
  | .length => false
  | .isvalid => false
  | .recvat => false
  | .type => false
  | .typestr => false
  | .alt => false
  | .lat => false
  | .lon => false
  | .vbat => false
  | .serial => false
  | .crcok => false
  | .symfmt => false

/-- The span of an operation in bits: the least frame length for which every read it makes is in range
(`20_memory.md` R28); 0 for an operation that reads no frame bit. -/
def span (i : Instr) (s : State) : Nat :=
  match i with
  | .construct hint _ => if hint = 1 then 16 else 0
  | .read bitOffset width => if width < 1 ∨ width > 32 then 0 else bitOffset + width
  | .descr byteIndex => 8 * byteIndex + 8
  | .xorm _ _ => 0
  | .length => 0
  | .isvalid => 0
  | .recvat => 0
  | .type => 0
  | .typestr => byType (8 * (s.N / 8)) 0 0 0 s.sondeType
  | .alt => byType 0 208 208 2272 s.sondeType
  | .lat => byType 0 144 144 0 s.sondeType
  | .lon => byType 0 176 176 0 s.sondeType
  | .vbat => byType 0 568 560 528 s.sondeType
  | .serial => byType 0 784 784 520 s.sondeType
  | .crcok => byType 0 808 0 0 s.sondeType
  | .symfmt => 8 * (s.N / 8)

/-- In-span: every frame bit the operation's rule reads lies below `N` (`20_memory.md` R28). -/
def InSpan (i : Instr) (s : State) : Prop := span i s ≤ s.N

/-- Two states whose registers and mask agree and whose frames agree below bit `n`. -/
def AgreeBelow (n : Nat) (s s' : State) : Prop :=
  s'.sondeType = s.sondeType ∧ s'.ts = s.ts ∧ s'.mask = s.mask ∧ ∀ j < n, s'.F j = s.F j

/-- Two states that agree in all that a response is a function of beside its request: `F`, `N`, `MASK`, `TYPE` and `TS`
(`10_state.md` R17). -/
def SameInputs (s s' : State) : Prop := s'.frameLen = s.frameLen ∧ AgreeBelow s.N s s'

/-- The operation completes in both states with the same response, the unspecified `ts` included. -/
def SameResponse (i : Instr) (s s' : State) : Prop :=
  ∃ t t' r, exec i s = .next t ∧ exec i s' = .next t' ∧ t.resp = some r ∧ t'.resp = some r

/-- The operations whose answer rests on the whole frame or its length, not on a fixed field of it. -/
def readsWholeFrame : List Instr := [.length, .typestr, .crcok, .symfmt]

/-- The value a hexadecimal digit spells (`00_scope.md` R8). -/
def hexValue (c : Byte) : Nat := if c.toNat < 0x41 then c.toNat - 0x30 else c.toNat - 0x41 + 10

/-- The number a decimal text spells. -/
def decValue (t : Str) : Nat := t.foldl (fun v c => 10 * v + (c.toNat - 0x30)) 0

/-- `L(cs) = Step(cs, 0)` (`44_checksum_validator.md` R99). -/
def crcShift (cs : BitVec 16) : BitVec 16 := crcStep cs false

/-- No cell of the frame holds a bit at or beyond `N`, so that one frame has one form. -/
def FrameClipped (s : State) : Prop := ∀ c ∈ s.mem, ∀ j < 8, c.2.getMsbD j = true → 8 * c.1 + j < s.N

/-- Every `val` lies in the ranges of `30_encoding.md` R37 and `err` is empty (`45_packet_facade.md` R104). -/
def ResponseInRange (s : State) : Prop := ∀ r, s.resp = some r → -48000 ≤ r.val ∧ r.val < 2 ^ 32 ∧ r.err = []

/-- The invariant: the frame has its one canonical form and the response is one the spec allows. -/
def Inv (s : State) : Prop := Memory.wf s.mem ∧ FrameClipped s ∧ ResponseInRange s

end Sys2Proof.Machine
end

