-- ==== Sys2Proof/Certificates/Slice0/Obligations.lean ====
section
/-! DEFINITION. The statements for the provers. Each docstring names the rule of spec/ it formalises. `Answers i s val str err` (Safety)
concludes that `exec i s` answers a next state with that response and that both registers, the frame, the mask and the
pending requests are unchanged: it is the completion, the result and the frame of an operation in one. -/

open Sys2Proof Sys2Proof.Machine

/-! ### Requests: encoding, decoding, the step -/

/-- Words written out in `30_encoding.md` R43 and in the vectors of `95_test_vectors.md` decode to what stands beside
them. -/
def Obligations.SpecWordsDecode : Prop := ∀ ts : Timestamp,
    decode ⟨0x000000000100, ts⟩ = .ok (.construct 1 ts) ∧ decode ⟨0x00FFFFFFF900, ts⟩ = .ok (.construct 1 ts) ∧
    decode ⟨0x000000000500, ts⟩ = .ok (.construct 5 ts) ∧ decode ⟨0x010000000010, ts⟩ = .ok (.read 0 16) ∧
    decode ⟨0x01FFFFFFFF01, ts⟩ = .ok (.read 4294967295 1) ∧ decode ⟨0x01000003030D, ts⟩ = .ok (.read 771 13) ∧
    decode ⟨0x020000003900, ts⟩ = .ok (.descr 57) ∧ decode ⟨0x030000003953, ts⟩ = .ok (.xorm 57 0x53) ∧
    decode ⟨0x040000000000, ts⟩ = .ok .length ∧ decode ⟨0x060000000000, ts⟩ = .ok .recvat ∧
    decode ⟨0x090000000000, ts⟩ = .ok .alt ∧ decode ⟨0x0E0000000000, ts⟩ = .ok .crcok ∧
    decode ⟨0x0F0000000000, ts⟩ = .ok .symfmt ∧ decode ⟨0x1FFFFFFFFFFF, ts⟩ = .error (.reservedOp 0x1F)

/-- R34: a request word is `op * 2^40 + A * 2^8 + B`, and its three fields are read back from it and make it up. -/
def Obligations.RequestWordIsItsFields : Prop :=
  (∀ (op : BitVec 5) (a : BitVec 32) (b : BitVec 8),
    (requestWord op a b).toNat = op.toNat * 2 ^ 40 + a.toNat * 2 ^ 8 + b.toNat ∧
    fieldOp (requestWord op a b) = op ∧ fieldA (requestWord op a b) = a ∧ fieldB (requestWord op a b) = b) ∧
  (∀ w : BitVec 45, requestWord (fieldOp w) (fieldA w) (fieldB w) = w) ∧
  ∀ w : BitVec 45, (fieldOp w).toNat = w.toNat / 2 ^ 40 ∧ (fieldA w).toNat = w.toNat / 2 ^ 8 % 2 ^ 32 ∧
    (fieldB w).toNat = w.toNat % 2 ^ 8

/-- R34, R35, R40: every well-formed instruction is decoded from its encoding, every operand at every value. -/
def Obligations.DecodeEncodeRoundTrip : Prop :=
  ∀ i : Instr, i.wellFormed = true → decode (encode i) = .ok i

/-- R40, R41: `op` alone selects; the sixteen codes decode to a well-formed instruction of that code, the reserved ones
to none, by name. -/
def Obligations.OperationCodeSelects : Prop :=
  ∀ r : Request,
    ((fieldOp r.word).toNat < 16 → ∃ i, decode r = .ok i ∧ opcode i = fieldOp r.word ∧ i.wellFormed = true) ∧
    (16 ≤ (fieldOp r.word).toNat → decode r = .error (.reservedOp (fieldOp r.word)))

/-- R35, R36: a field an operation ignores does not matter. CONSTRUCT looks at `A[2:0]` and `ts_in`, READ and XORM at `A`
and `B`, DESCR at `A`, the others at nothing but `op`. -/
def Obligations.IgnoredFieldsDoNotMatter : Prop :=
  ∀ r r' : Request, fieldOp r'.word = fieldOp r.word →
    ((fieldOp r.word).toNat = 0 →
      (fieldA r'.word).toNat % 8 = (fieldA r.word).toNat % 8 ∧ r'.tsIn = r.tsIn) →
    (((fieldOp r.word).toNat = 1 ∨ (fieldOp r.word).toNat = 3) →
      fieldA r'.word = fieldA r.word ∧ fieldB r'.word = fieldB r.word) →
    ((fieldOp r.word).toNat = 2 → fieldA r'.word = fieldA r.word) →
    decode r' = decode r

/-- A step runs the decoded instruction of the presented request, which is taken off the port (R33). -/
def Obligations.StepRunsPresentedRequest : Prop :=
  ∀ (s : State) (r : Request) (rest : List Request) (i : Instr),
    s.pending = r :: rest → decode r = .ok i → step s = exec i { s with pending := rest }

/-- R41: a reserved operation code changes no state, returns the all-default response and does not trap. -/
def Obligations.ReservedCodeAnswersDefault : Prop :=
  ∀ (s : State) (r : Request) (rest : List Request), s.pending = r :: rest → 16 ≤ (fieldOp r.word).toNat →
    ∃ t q, step s = .next t ∧ t.resp = some q ∧ q.val = 0 ∧ q.str = [] ∧ q.err = [] ∧
      OnlyResponseDiffers { s with pending := rest } t

/-- Waiting for a request changes nothing (R19 says the block waits; that a step then answers the same state is the
model's choice, log 3). -/
def Obligations.NoRequestWaits : Prop :=
  ∀ s : State, s.pending = [] → step s = .next s

/-! ### The bit read primitive and READ -/

/-- R45, R46: `BR` is the weighted sum of the span's bits, the first the most significant, and 0 when the span does not end
within the frame; a result fits its width. -/
def Obligations.BitReadIsWeightedSum : Prop :=
  ∀ (s : State) (off w : Nat), 1 ≤ w → w ≤ 32 →
    (off + w > s.N → s.BR off w = 0) ∧
    (off + w ≤ s.N → s.BR off w = ∑ j ∈ Finset.range w, (s.F (off + j)).toNat * 2 ^ (w - 1 - j)) ∧
    (s.N = 0 → s.BR off w = 0) ∧ s.BR off w < 2 ^ w

/-- R50, R51, R24: in range a wide read is the concatenation of narrower ones, a 32-bit read of four bytes; across the end
of the frame it is 0 whatever the narrow reads give. -/
def Obligations.BitReadConcatenates : Prop :=
  (∀ (s : State) (off w v : Nat), 1 ≤ w → 1 ≤ v → w + v ≤ 32 →
    (off + w + v ≤ s.N → s.BR off (w + v) = s.BR off w * 2 ^ v + s.BR (off + w) v) ∧
    (off + w ≤ s.N → s.N < off + w + v → s.BR off (w + v) = 0)) ∧
  ∀ (s : State) (k : Nat), 8 * k + 32 ≤ s.N →
    s.BR (8 * k) 32 = s.byte k * 2 ^ 24 + s.byte (k + 1) * 2 ^ 16 + s.byte (k + 2) * 2 ^ 8 + s.byte (k + 3)

/-- R47, R48: READ completes in every state; a width outside `1..32` gives 0, any other the bits of the span or, beyond the
frame, 0. -/
def Obligations.ReadAnswers : Prop :=
  ∀ (s : State) (off w : Nat),
    (w < 1 ∨ w > 32 → Answers (.read off w) s 0 [] []) ∧
    (1 ≤ w → w ≤ 32 → off + w > s.N → Answers (.read off w) s 0 [] []) ∧
    (1 ≤ w → w ≤ 32 → off + w ≤ s.N →
      Answers (.read off w) s (∑ j ∈ Finset.range w, (s.F (off + j)).toNat * 2 ^ (w - 1 - j) : Nat) [] [])

/-! ### The descrambler -/

/-- R53, R59: DESCR completes in every state; the raw byte is made of eight bits, each 0 where it lies beyond the frame, and
the mask byte is always applied. -/
def Obligations.DescrAnswers : Prop :=
  ∀ (s : State) (k : Nat),
    Answers (.descr k) s
      (BitVec.ofNat 8 (∑ j ∈ Finset.range 8, (if 8 * k + j < s.N then (s.F (8 * k + j)).toNat else 0) * 2 ^ (7 - j)) ^^^
        s.mask[(k + 4) % 64]'(Nat.mod_lt _ (by decide))).toNat [] [] ∧
    (8 * k + 8 ≤ s.N → (s.rawByte k).toNat = s.byte k) ∧
    (s.N ≤ 8 * k → s.rawByte k = 0 ∧ s.D k = s.mask[(k + 4) % 64]'(Nat.mod_lt _ (by decide)))

/-- R57: XORM completes in every state with the value xor the mask byte, the index exact and then reduced modulo 64. -/
def Obligations.XormAnswers : Prop :=
  ∀ (s : State) (i : Nat) (v : Byte),
    Answers (.xorm i v) s (v ^^^ s.mask[(i + 4) % 64]'(Nat.mod_lt _ (by decide))).toNat [] [] ∧
    Answers (.xorm i 0) s (s.mask[(i + 4) % 64]'(Nat.mod_lt _ (by decide))).toNat [] [] ∧
    Answers (.xorm i (s.mask[(i + 4) % 64]'(Nat.mod_lt _ (by decide)))) s 0 [] [] ∧
    ∀ n : Nat, Answers (.xorm (i + 64 * n) v) s (v ^^^ s.mask[(i + 4) % 64]'(Nat.mod_lt _ (by decide))).toNat [] []

/-- R58: XORM applied to its own result with the same index gives the original byte back, for every mask. -/
def Obligations.DescramblingIsAnInvolution : Prop :=
  ∀ (s : State) (i : Nat) (v : Byte), s.descramble i (s.descramble i v) = v ∧
    ∃ t r, exec (.xorm i v) s = .next t ∧ t.resp = some r ∧ 0 ≤ r.val ∧ r.val < 256 ∧
      Answers (.xorm i (BitVec.ofInt 8 r.val)) t v.toNat [] []

/-- R60 (a), (b): the mask has period 64 in the byte index, and is what a descrambled byte and its raw byte differ by. -/
def Obligations.MaskHasPeriod64 : Prop :=
  ∀ (s : State) (k k' : Nat),
    s.D k ^^^ s.rawByte k = s.mask[(k + 4) % 64]'(Nat.mod_lt _ (by decide)) ∧
    (k % 64 = k' % 64 → s.D k ^^^ s.D k' = s.rawByte k ^^^ s.rawByte k')

/-! ### Resolution and dispatch -/

/-- R62, R63, R64: CONSTRUCT completes in every state, stores the timestamp and the resolved type, and answers the default.
Hint 1 is resolved by the first 16 bits, and stays unresolved on a frame shorter than that; hints 0, 2, 3, 4 are stored as
they stand; 5, 6, 7 store `Unknown`. -/
def Obligations.ConstructLatchesTypeAndTimestamp : Prop :=
  ∀ (s : State) (hint : BitVec 3) (tsIn : Timestamp),
    ∃ t r, exec (.construct hint tsIn) s = .next t ∧ t.ts = tsIn ∧
      SameFrame s t ∧ t.mask = s.mask ∧ t.pending = s.pending ∧
      t.resp = some r ∧ r.val = 0 ∧ r.str = [] ∧ r.err = [] ∧
      (hint = 0 → t.sondeType = .unknown) ∧
      (hint = 1 → s.BR 0 16 = 0x649F → t.sondeType = .meteomodemM10) ∧
      (hint = 1 → s.BR 0 16 = 0x648F → t.sondeType = .meteomodemM2K2) ∧
      (hint = 1 → s.BR 0 16 ≠ 0x649F → s.BR 0 16 ≠ 0x648F → t.sondeType = .meteomodemUnknown) ∧
      (hint = 1 → s.N < 16 → t.sondeType = .meteomodemUnknown) ∧
      (hint = 2 → t.sondeType = .meteomodemM10) ∧
      (hint = 3 → t.sondeType = .meteomodemM2K2) ∧
      (hint = 4 → t.sondeType = .vaisalaRS41SG) ∧
      (hint = 5 ∨ hint = 6 ∨ hint = 7 → t.sondeType = .unknown)

/-- R70: after a CONSTRUCT the type is unresolved only if the hint was and neither discriminator matched. -/
def Obligations.UnresolvedOnlyWithoutDiscriminator : Prop :=
  ∀ (s t : State) (hint : BitVec 3) (tsIn : Timestamp), exec (.construct hint tsIn) s = .next t →
    t.sondeType = .meteomodemUnknown → hint = 1 ∧ s.BR 0 16 ≠ 0x649F ∧ s.BR 0 16 ≠ 0x648F

/-- A second CONSTRUCT leaves nothing of the first: the same state results as from the second alone, and so the same
response (R69); and after any requests at all, each of which completes (R33, R41, R115, R126), CONSTRUCT gives the very state
that it gives a new instance over the same frame and mask. That RECVAT completes among those requests before the first
CONSTRUCT is the model's choice (log 5): R103 and D19 have the model refuse it. -/
def Obligations.SecondConstructLeavesNoResidue : Prop :=
  (∀ (s : State) (h h' : BitVec 3) (v v' : Timestamp),
    ∃ t u, exec (.construct h v) s = .next t ∧ exec (.construct h' v') t = .next u ∧ exec (.construct h' v') s = .next u) ∧
  ∀ (s : State) (h : BitVec 3) (v : Timestamp) (earlier : List Request),
    s.pending = earlier ++ [encode (.construct h v)] →
    ∃ t, Host.Core.run Sys2Proof.core (earlier.length + 1) s = .next t ∧
      exec (.construct h v) { State.reset with frameLen := s.frameLen, mem := s.mem, mask := s.mask } = .next t

/-- R65: TYPE completes in every state with the code of R38. -/
def Obligations.TypeAnswers : Prop :=
  ∀ s : State,
    (s.sondeType = .unknown → Answers .type s 0 [] []) ∧ (s.sondeType = .meteomodemUnknown → Answers .type s 1 [] []) ∧
    (s.sondeType = .meteomodemM10 → Answers .type s 2 [] []) ∧
    (s.sondeType = .meteomodemM2K2 → Answers .type s 3 [] []) ∧
    (s.sondeType = .vaisalaRS41SG → Answers .type s 4 [] [])

/-- R66: TYPESTR completes in every state: the name of a recognized variant, else the preview, a start of the dump. -/
def Obligations.TypestrAnswers : Prop :=
  ∀ s : State,
    (s.sondeType = .meteomodemM10 ∨ s.sondeType = .meteomodemM2K2 ∨ s.sondeType = .vaisalaRS41SG →
      Answers .typestr s 0 (Config.typeName s.sondeType) []) ∧
    (s.sondeType = .unknown ∨ s.sondeType = .meteomodemUnknown →
      Answers .typestr s 0 (Config.previewPrefix ++ s.sym.take (min Config.previewChars s.sym.length)) [] ∧
      (s.N < 8 → Answers .typestr s 0 Config.previewPrefix []))

/-- R68: for an unsupported variant the six field operations complete with their defaults, whatever the frame holds. -/
def Obligations.UnsupportedTypeDefaults : Prop :=
  ∀ s : State, s.sondeType = .unknown ∨ s.sondeType = .meteomodemUnknown →
    Answers .alt s 0 [] [] ∧ Answers .lat s 0 [] [] ∧ Answers .lon s 0 [] [] ∧ Answers .vbat s 0 [] [] ∧
    Answers .serial s 0 [0x3F] [] ∧ Answers .crcok s 0 [] []

/-- Every operation but CONSTRUCT leaves both registers as they are (R70, R13, R14), completes (R33, R115, R126), and leaves
the frame and the mask as they are (R21, R10 to R12) and the requests that wait (log 3). That RECVAT completes before the
first CONSTRUCT is the model's choice (log 5): R14 and R103 have the model refuse it. -/
def Obligations.OnlyConstructWritesRegisters : Prop :=
  ∀ (i : Instr) (s : State), isConstruct i = false → ∃ t, exec i s = .next t ∧ OnlyResponseDiffers s t

/-! ### The field table -/

/-- R73, R74, R76: ALT completes in every state. M10 and M2K2: the unsigned 32-bit field at byte 22 less 48000, and -48000 on
a frame too short for it; RS41SG: four descrambled bytes at 280, big-endian, less 48000; else 0. -/
def Obligations.AltAnswers : Prop :=
  ∀ s : State,
    (s.sondeType = .meteomodemM10 ∨ s.sondeType = .meteomodemM2K2 →
      Answers .alt s ((s.BR 176 32 : Int) - 48000) [] [] ∧ (s.N < 208 → Answers .alt s (-48000) [] []) ∧
      -48000 ≤ (s.BR 176 32 : Int) - 48000 ∧ (s.BR 176 32 : Int) - 48000 ≤ 4294919295) ∧
    (s.sondeType = .vaisalaRS41SG →
      Answers .alt s (((s.D 280).toNat * 2 ^ 24 + (s.D 281).toNat * 2 ^ 16 + (s.D 282).toNat * 2 ^ 8 + (s.D 283).toNat : Nat)
        - 48000 : Int) [] []) ∧
    (s.sondeType = .unknown ∨ s.sondeType = .meteomodemUnknown → Answers .alt s 0 [] [])

/-- R78, R79: LAT completes in every state: the 32-bit field at byte 14 for M10 and M2K2 (0 when the frame is too short),
0 for every other type. -/
def Obligations.LatAnswers : Prop :=
  ∀ s : State,
    (s.sondeType = .meteomodemM10 ∨ s.sondeType = .meteomodemM2K2 →
      Answers .lat s (s.BR 112 32) [] [] ∧ (s.N < 144 → Answers .lat s 0 [] [])) ∧
    (s.sondeType = .vaisalaRS41SG ∨ s.sondeType = .unknown ∨ s.sondeType = .meteomodemUnknown → Answers .lat s 0 [] [])

/-- R81, R82: LON completes in every state: the 32-bit field at byte 18 for M10 and M2K2 (0 when the frame is too short),
0 for every other type. -/
def Obligations.LonAnswers : Prop :=
  ∀ s : State,
    (s.sondeType = .meteomodemM10 ∨ s.sondeType = .meteomodemM2K2 →
      Answers .lon s (s.BR 144 32) [] [] ∧ (s.N < 176 → Answers .lon s 0 [] [])) ∧
    (s.sondeType = .vaisalaRS41SG ∨ s.sondeType = .unknown ∨ s.sondeType = .meteomodemUnknown → Answers .lon s 0 [] [])

/-- R84, R85, R86: VBAT completes in every state: M10 bytes 69 and 70, little-endian, times 1000, read one by one; M2K2 byte
69 times 66; RS41SG descrambled byte 65 times 100; else 0. -/
def Obligations.VbatAnswers : Prop :=
  ∀ s : State,
    (s.sondeType = .meteomodemM10 →
      Answers .vbat s ((s.BR 552 8 + s.BR 560 8 * 256) * 1000 : Nat) [] [] ∧
      (560 ≤ s.N → s.N < 568 → Answers .vbat s (s.BR 552 8 * 1000 : Nat) [] [])) ∧
    (s.sondeType = .meteomodemM2K2 → Answers .vbat s (s.BR 552 8 * 66 : Nat) [] []) ∧
    (s.sondeType = .vaisalaRS41SG → Answers .vbat s ((s.D 65).toNat * 100 : Nat) [] []) ∧
    (s.sondeType = .unknown ∨ s.sondeType = .meteomodemUnknown → Answers .vbat s 0 [] [])

/-- R88: SERIAL for M10 and M2K2 completes with eleven characters made of the five packed fields at byte 93. -/
def Obligations.MeteomodemSerialAnswers : Prop :=
  ∀ s : State, s.sondeType = .meteomodemM10 ∨ s.sondeType = .meteomodemM2K2 →
    ∃ str, Answers .serial s 0 str [] ∧ str.length = 11 ∧
      str = [hexdigit (s.BR 760 4)] ++ dec (s.BR 764 4) 2 ++ [0x20] ++ [hexdigit (s.BR 748 4)] ++ [0x20] ++
        dec (s.BR 768 3) 1 ++ dec (s.BR 771 13) 4

/-- R8: `dec(v, w)` is the decimal numeral of `v` padded with zeros to at least `w` characters and never truncated:
it spells `v`, in digits, in no more characters than needed. -/
def Obligations.DecimalTextSpellsItsNumber : Prop :=
  ∀ v w : Nat, decValue (dec v w) = v ∧ (∀ c ∈ dec v w, 0x30 ≤ c.toNat ∧ c.toNat ≤ 0x39) ∧ w ≤ (dec v w).length ∧
    ∀ n : Nat, 1 ≤ n → v < 10 ^ n → (dec v w).length ≤ max w n

/-- R89, R90: SERIAL for RS41SG completes with the eight descrambled bytes from 57 on if all are printable, else with `"?"`;
for an unsupported variant with `"?"`. -/
def Obligations.VaisalaSerialIsAllOrNothing : Prop :=
  ∀ s : State,
    (s.sondeType = .vaisalaRS41SG →
      ((∀ j < 8, 32 ≤ (s.D (57 + j)).toNat ∧ (s.D (57 + j)).toNat ≤ 126) →
        Answers .serial s 0 [s.D 57, s.D 58, s.D 59, s.D 60, s.D 61, s.D 62, s.D 63, s.D 64] []) ∧
      (∀ j < 8, ((s.D (57 + j)).toNat < 32 ∨ 126 < (s.D (57 + j)).toNat) → Answers .serial s 0 [0x3F] [])) ∧
    (s.sondeType = .unknown ∨ s.sondeType = .meteomodemUnknown → Answers .serial s 0 [0x3F] [])

/-- R71: the numerator an operation answers, times the unit its operation and type fix, is what the document's formula
denotes, with no rounding. -/
def Obligations.NumeratorsDenoteTheFormulas : Prop :=
  ∀ s : State,
    (s.sondeType = .meteomodemM10 ∨ s.sondeType = .meteomodemM2K2 →
      (∃ v u, Answers .alt s v [] [] ∧ fieldUnit .alt s.sondeType = some (u, .metre) ∧
        (v : ℚ) * u = (s.BR 176 32 : ℚ) / 1000 - 48) ∧
      (∃ v u, Answers .lat s v [] [] ∧ fieldUnit .lat s.sondeType = some (u, .degree) ∧
        (v : ℚ) * u = (s.BR 112 32 : ℚ) * 360 / 2 ^ 32) ∧
      (∃ v u, Answers .lon s v [] [] ∧ fieldUnit .lon s.sondeType = some (u, .degree) ∧
        (v : ℚ) * u = (s.BR 144 32 : ℚ) * 360 / 2 ^ 32 ∧ 0 ≤ (v : ℚ) * u ∧ (v : ℚ) * u < 360)) ∧
    (s.sondeType = .meteomodemM10 →
      ∃ v u, Answers .vbat s v [] [] ∧ fieldUnit .vbat s.sondeType = some (u, .millivolt) ∧
        (v : ℚ) * u = ((s.byte 69 : ℚ) + (s.byte 70 : ℚ) * 256) * 1000 / 150) ∧
    (s.sondeType = .meteomodemM2K2 →
      ∃ v u, Answers .vbat s v [] [] ∧ fieldUnit .vbat s.sondeType = some (u, .notStated) ∧
        (v : ℚ) * u = (s.byte 69 : ℚ) * 66) ∧
    (s.sondeType = .vaisalaRS41SG →
      (∃ v u, Answers .vbat s v [] [] ∧ fieldUnit .vbat s.sondeType = some (u, .millivolt) ∧
        (v : ℚ) * u = ((s.D 65).toNat : ℚ) * 100) ∧
      ∃ v u, Answers .alt s v [] [] ∧ fieldUnit .alt s.sondeType = some (u, .metre) ∧
        (v : ℚ) * u = (s.altZ : ℚ) / 1000 - 48)

/-- A Meteomodem field is a function of the type and the frame's bits (R91, R92), and so is the verdict of CRCOK (R93, R95,
R96; R55 keeps the descrambler out of both); the mask, the timestamp and anything before do not matter, to
any field of the response. -/
def Obligations.MeteomodemFieldsIgnoreTheMask : Prop :=
  ∀ (s s' : State) (i : Instr),
    s.sondeType = .meteomodemM10 ∨ s.sondeType = .meteomodemM2K2 → i ∈ [Instr.alt, .lat, .lon, .vbat, .serial, .crcok] →
    s'.sondeType = s.sondeType → s'.frameLen = s.frameLen → (∀ j < s.N, s'.F j = s.F j) → SameResponse i s s'

/-! ### The checksum -/

/-- R94, R96, R97: CRCOK completes in every state. M10: 1 exactly when the accumulator after all `N` bits equals the
big-endian field at bytes 99 and 100, two raw reads that give 0 beyond the frame; every other type: 0. -/
def Obligations.CrcokAnswers : Prop :=
  ∀ s : State,
    (s.sondeType = .meteomodemM10 →
      ((s.cs s.N).toNat = s.BR 792 8 * 256 + s.BR 800 8 → Answers .crcok s 1 [] []) ∧
      ((s.cs s.N).toNat ≠ s.BR 792 8 * 256 + s.BR 800 8 → Answers .crcok s 0 [] []) ∧
      (800 ≤ s.N → s.N < 808 → ((s.cs s.N).toNat = s.BR 792 8 * 256 ↔ Answers .crcok s 1 [] [])) ∧
      (s.N < 800 → (s.cs s.N = 0 ↔ Answers .crcok s 1 [] []))) ∧
    (s.sondeType = .unknown ∨ s.sondeType = .meteomodemUnknown ∨ s.sondeType = .meteomodemM2K2 ∨
      s.sondeType = .vaisalaRS41SG → Answers .crcok s 0 [] [])

/-- R98: the reduced form of the checksum step, bit by bit. -/
def Obligations.ChecksumStepBits : Prop :=
  ∀ (c : BitVec 16) (b : Bool),
    (crcStep c b).getLsbD 0 = (c.getLsbD 0 ^^ c.getLsbD 7 ^^ c.getLsbD 9) ∧
    (crcStep c b).getLsbD 1 = (c.getLsbD 1 ^^ c.getLsbD 8 ^^ c.getLsbD 10) ∧
    (crcStep c b).getLsbD 2 = (c.getLsbD 2 ^^ c.getLsbD 9 ^^ c.getLsbD 11) ∧
    (crcStep c b).getLsbD 3 = (c.getLsbD 3 ^^ c.getLsbD 10 ^^ c.getLsbD 12) ∧
    (crcStep c b).getLsbD 4 = (c.getLsbD 4 ^^ c.getLsbD 11 ^^ c.getLsbD 13) ∧
    (crcStep c b).getLsbD 5 = (c.getLsbD 5 ^^ c.getLsbD 12 ^^ c.getLsbD 14 ^^ b) ∧
    (crcStep c b).getLsbD 6 = (c.getLsbD 0 ^^ c.getLsbD 2 ^^ c.getLsbD 4 ^^ c.getLsbD 13) ∧
    (crcStep c b).getLsbD 7 = (c.getLsbD 1 ^^ c.getLsbD 3 ^^ c.getLsbD 5 ^^ c.getLsbD 14 ^^ b) ∧
    ∀ k < 8, (crcStep c b).getLsbD (8 + k) = c.getLsbD k

/-- R99: the step is linear over exclusive or, a one bit adds 0x00A0, and the kernel is `{0x0000, 0x8000}`. -/
def Obligations.ChecksumStepIsLinear : Prop :=
  (∀ x y : BitVec 16, crcShift (x ^^^ y) = crcShift x ^^^ crcShift y) ∧
  (∀ x : BitVec 16, crcStep x true = crcStep x false ^^^ 0x00A0) ∧
  ∀ x : BitVec 16, crcShift x = 0 ↔ x = 0 ∨ x = 0x8000

/-- R99: the accumulator is the exclusive or of what each one bit contributes, and no contribution is ever 0. -/
def Obligations.ChecksumIsSumOfContributions : Prop :=
  (∀ (s : State) (n : Nat), s.cs n =
    (List.range n).foldl (fun acc i => if s.F i then acc ^^^ crcShift^[n - 1 - i] 0x00A0 else acc) 0) ∧
  ∀ k : Nat, crcShift^[k] 0x00A0 ≠ 0

/-- R99: of two M10 frames of one length that differ in exactly one bit, outside the check field, at most one verifies.
This is the guarantee the checksum gives, over every frame. -/
def Obligations.SingleBitFlipIsDetected : Prop :=
  ∀ (s s' : State) (i : Nat), s.sondeType = .meteomodemM10 → s'.sondeType = .meteomodemM10 →
    s'.frameLen = s.frameLen → i < s.N → i < 792 ∨ 808 ≤ i →
    (∀ j < s.N, s'.F j = if j = i then !s.F j else s.F j) →
    Answers .crcok s 1 [] [] → Answers .crcok s' 0 [] []

/-- R100 (a), (b): an empty frame and an all-zero frame of any length verify. -/
def Obligations.ZeroFrameVerifies : Prop :=
  ∀ s : State, s.sondeType = .meteomodemM10 → (∀ j < s.N, s.F j = false) → Answers .crcok s 1 [] []

/-! ### The facade -/

/-- R101: LENGTH completes in every state with the frame's length in bits. -/
def Obligations.LengthAnswers : Prop :=
  ∀ s : State, Answers .length s s.frameLen.toNat [] []

/-- R102: ISVALID completes in every state with 1. -/
def Obligations.IsvalidAnswers : Prop :=
  ∀ s : State, Answers .isvalid s 1 [] []

/-- R103: RECVAT passes `TS` through. It completes in every state; for a state before the first CONSTRUCT that is the model's
choice (log 5): R103 and D19 give no defined result there and have the model refuse it, R117 lets any value come. -/
def Obligations.RecvatAnswers : Prop :=
  ∀ s : State, ∃ t r, exec .recvat s = .next t ∧ t.resp = some r ∧ r.ts = s.ts ∧ r.val = 0 ∧ r.str = [] ∧ r.err = [] ∧
    OnlyResponseDiffers s t

/-- R103: whatever other requests come between, RECVAT returns the timestamp of the last CONSTRUCT. -/
def Obligations.RecvatReturnsLastConstruct : Prop :=
  ∀ (s : State) (hint : BitVec 3) (v : Timestamp) (between : List Request),
    (∀ r ∈ between, fieldOp r.word ≠ 0) →
    s.pending = encode (.construct hint v) :: (between ++ [encode .recvat]) →
    ∃ t r, Host.Core.run Sys2Proof.core (between.length + 2) s = .next t ∧ State.pending t = [] ∧
      State.resp t = some r ∧ r.ts = v

/-- R104, R105: SYMFMT completes in every state; the dump has two digits for each whole byte of the frame, the high nibble
first, of the frame byte xor its mask byte. -/
def Obligations.SymfmtAnswers : Prop :=
  ∀ s : State, ∃ str, Answers .symfmt s 0 str [] ∧ str.length = 2 * (s.N / 8) ∧
    (∀ k < s.N / 8, (str.drop (2 * k)).take 2 =
      hex2 (BitVec.ofNat 8 (s.byte k) ^^^ s.mask[(k + 4) % 64]'(Nat.mod_lt _ (by decide)))) ∧
    ∀ c ∈ str, (0x30 ≤ c.toNat ∧ c.toNat ≤ 0x39) ∨ (0x41 ≤ c.toNat ∧ c.toNat ≤ 0x46)

/-- R106: the dump loses nothing of the frame's whole bytes: descrambling the byte a pair of characters spells gives the raw
byte. -/
def Obligations.DumpLosesNothing : Prop :=
  ∀ (s : State) (k : Nat), k < s.N / 8 →
    ∃ hi lo, s.sym[2 * k]? = some hi ∧ s.sym[2 * k + 1]? = some lo ∧
      (s.descramble k (BitVec.ofNat 8 (16 * hexValue hi + hexValue lo))).toNat = s.byte k

/-! ### The whole machine -/

/-- R19: after reset the type is `Unknown`, no frame is bound, so the length is 0 and every read gives 0, and the mask has
its constant contents. (That no request is presented and no response given is the model's choice, logs 3 and 4.) -/
def Obligations.ResetState : Prop :=
  State.reset.sondeType = .unknown ∧ State.reset.frameLen = 0 ∧ State.reset.mask = Config.mask ∧
  State.reset.pending = [] ∧ State.reset.resp = none ∧ ∀ off w : Nat, 1 ≤ w → State.reset.BR off w = 0

/-- R117: what the operations answer before the first CONSTRUCT, over whatever frame is bound. -/
def Obligations.BeforeConstruct : Prop :=
  ∀ (n : BitVec 32) (bytes : List Byte) (s : State), s = State.reset.bindFrame n bytes →
    Answers .length s n.toNat [] [] ∧ Answers .isvalid s 1 [] [] ∧ Answers .type s 0 [] [] ∧
    Answers .alt s 0 [] [] ∧ Answers .lat s 0 [] [] ∧ Answers .lon s 0 [] [] ∧ Answers .vbat s 0 [] [] ∧
    Answers .crcok s 0 [] [] ∧ Answers .serial s 0 [0x3F] [] ∧ Answers .symfmt s 0 s.sym [] ∧
    Answers .typestr s 0 (Config.previewPrefix ++ s.sym.take Config.previewChars) []

/-- Every step completes, in every state: an operation is total (R115, R126) and no condition of it traps (R113). Two cases are
the model's choices: RECVAT before the first CONSTRUCT is not refused, though R103, R117 and D19 have the model refuse it
(log 5), and with no request presented a step answers the same state (log 3). -/
def Obligations.EveryStepCompletes : Prop :=
  ∀ s : State, ∃ t, step s = .next t

/-- R21, R10, R12: no step changes the frame, its length or the mask. -/
def Obligations.NoStepChangesFrameOrMask : Prop :=
  ∀ s t : State, step s = .next t → SameFrame s t ∧ t.mask = s.mask

/-- R18, R30: an operation that is no CONSTRUCT does not change the response of any operation that is no CONSTRUCT, itself
included, in any field. That it holds of two RECVATs before the first CONSTRUCT is the model's choice (log 5): R117 lets
any value come there. -/
def Obligations.AccessorsDoNotInterfere : Prop :=
  ∀ (i j : Instr) (s t : State), isConstruct i = false → isConstruct j = false → exec i s = .next t → SameResponse j s t

/-- R17: a response, in every field, is a function of the request, `F`, `N`, `MASK`, `TYPE` and `TS` and of nothing else. For
RECVAT before the first CONSTRUCT that is the model's choice (log 5): R117 lets any value come there. -/
def Obligations.ResponseIsFunctionOfInputs : Prop :=
  ∀ (i : Instr) (s s' : State), SameInputs s s' → SameResponse i s s'

/-- R14, R91: RECVAT alone reads the timestamp; the response of every other operation, and of every field operation first of
all, is in every field a function of `TYPE`, `F`, `N` and `MASK` (and of the request). -/
def Obligations.OnlyRecvatReadsTimestamp : Prop :=
  ∀ (i : Instr) (s s' : State), i ≠ .recvat → s'.sondeType = s.sondeType → s'.mask = s.mask → s'.frameLen = s.frameLen →
    (∀ j < s.N, s'.F j = s.F j) → SameResponse i s s'

/-- R52, R56, R57, R101, R102, R104, R117: READ, DESCR, XORM, LENGTH, ISVALID and SYMFMT do not depend on `TYPE` or `TS`, in any
field of the response; READ depends on `F` and `N` only, XORM on the mask only, LENGTH on `N` only, ISVALID on nothing. -/
def Obligations.PrimitivesIgnoreTypeAndTimestamp : Prop :=
  ∀ s s' : State,
    (s'.mask = s.mask → ∀ i v, SameResponse (.xorm i v) s s') ∧ SameResponse .isvalid s s' ∧
    (s'.frameLen = s.frameLen → SameResponse .length s s' ∧
      ((∀ j < s.N, s'.F j = s.F j) → (∀ off w, SameResponse (.read off w) s s') ∧
        (s'.mask = s.mask → (∀ k, SameResponse (.descr k) s s') ∧ SameResponse .symfmt s s')))

/-- R70: while no CONSTRUCT comes, a request gets the same response, in every field, whatever requests came before it.
Reserved operation codes are among the requests (R41). For RECVAT before the first CONSTRUCT that is the model's choice
(log 5): R117 lets any value come there. -/
def Obligations.ResponseIsFixedBetweenConstructs : Prop :=
  ∀ (s : State) (q : Request) (between : List Request), fieldOp q.word ≠ 0 → (∀ r ∈ between, fieldOp r.word ≠ 0) →
    s.pending = between ++ [q] →
    ∃ t t' r, Host.Core.run Sys2Proof.core (between.length + 1) s = .next t ∧ step { s with pending := [q] } = .next t' ∧
      State.resp t = some r ∧ t'.resp = some r ∧ State.sondeType t = s.sondeType ∧ State.ts t = s.ts

/-- R28: an in-span operation is fixed by the frame's bits below its span, whatever the rest of the frame and its length
(for the operations that read fixed fields; READ and DESCR at the place they name). For RECVAT before the first CONSTRUCT
it is the model's choice (log 5). -/
def Obligations.InSpanAnswerIsFixedBySpan : Prop :=
  ∀ (i : Instr) (s s' : State), isConstruct i = false → i ∉ readsWholeFrame → InSpan i s → span i s ≤ s'.N →
    AgreeBelow (span i s) s s' → SameAnswer i s s'

/-- R37: every numeric result of every operation lies in the spec's ranges, so its 64-bit two's-complement form on a port
loses nothing. -/
def Obligations.ValuesFitThePort : Prop :=
  ∀ (i : Instr) (s t : State) (r : Response), exec i s = .next t → t.resp = some r →
    -48000 ≤ r.val ∧ r.val < 2 ^ 32 ∧ (BitVec.ofInt 64 r.val).toInt = r.val

/-- R118 step 2, R121 (a): binding a frame gives the frame the bits the host hands over, in one canonical form, and changes
neither register (the operation itself is the model's, log 17). -/
def Obligations.BindFrameGivesTheBits : Prop :=
  ∀ (s : State) (n : BitVec 32) (bytes : List Byte),
    (s.bindFrame n bytes).N = n.toNat ∧
    (∀ i < n.toNat, (s.bindFrame n bytes).F i = (bytes.getD (i / 8) 0).getMsbD (i % 8)) ∧
    Memory.wf (s.bindFrame n bytes).mem ∧ FrameClipped (s.bindFrame n bytes) ∧
    (s.bindFrame n bytes).sondeType = s.sondeType ∧ (s.bindFrame n bytes).ts = s.ts

/-- The invariant: the frame keeps its one canonical form, every response keeps the ranges of R37 and an empty error string
(R104), over every step from every state that has it. -/
def Obligations.StepKeepsInvariant : Prop :=
  ∀ s t : State, Inv s → step s = .next t → Inv t

/-- The invariant holds at reset. -/
def Obligations.ResetHasInvariant : Prop :=
  Inv State.reset
end

