-- ==== Sys2Proof/Laws/Decode.lean ====
section
/-! SUPPORT. The fields of a request word. -/

namespace Sys2Proof

@[simp] theorem fieldOp_requestWord (op : BitVec 5) (a : BitVec 32) (b : BitVec 8) :
    fieldOp (requestWord op a b) = op := by
  ext i hi
  simp only [fieldOp, requestWord, BitVec.getElem_extractLsb', BitVec.getLsbD_append]
  simp only [show ¬ 40 + i < 8 by omega, show ¬ 40 + i - 8 < 32 by omega, if_false,
    show 40 + i - 8 - 32 = i by omega, BitVec.getLsbD_eq_getElem hi]

@[simp] theorem fieldA_requestWord (op : BitVec 5) (a : BitVec 32) (b : BitVec 8) :
    fieldA (requestWord op a b) = a := by
  ext i hi
  simp only [fieldA, requestWord, BitVec.getElem_extractLsb', BitVec.getLsbD_append]
  simp only [show ¬ 8 + i < 8 by omega, if_false, show 8 + i - 8 = i by omega, hi, if_true,
    BitVec.getLsbD_eq_getElem hi]

@[simp] theorem fieldB_requestWord (op : BitVec 5) (a : BitVec 32) (b : BitVec 8) :
    fieldB (requestWord op a b) = b := by
  ext i hi
  simp only [fieldB, requestWord, BitVec.getElem_extractLsb', BitVec.getLsbD_append]
  simp only [Nat.zero_add, hi, if_true, BitVec.getLsbD_eq_getElem hi]

/-- A request whose code is reserved is rejected by name. -/
theorem decode_reserved (r : Request) (h : 16 ≤ (fieldOp r.word).toNat) :
    decode r = .error (.reservedOp (fieldOp r.word)) := by
  unfold decode
  split <;> first | rfl | omega

/-! The row of `30_encoding.md` R40 that each operation code selects, with its operands as R35 assembles them. -/

section rows
variable {w : BitVec 45} {ts : Timestamp}

theorem decode_construct {hint : BitVec 3} (h : (fieldOp w).toNat = 0) (ha : (fieldA w).extractLsb' 0 3 = hint) :
    decode ⟨w, ts⟩ = .ok (.construct hint ts) := by simp only [decode, h, ha]
theorem decode_read {a b : Nat} (h : (fieldOp w).toNat = 1) (ha : (fieldA w).toNat = a) (hb : (fieldB w).toNat = b) :
    decode ⟨w, ts⟩ = .ok (.read a b) := by simp only [decode, h, ha, hb]
theorem decode_descr {a : Nat} (h : (fieldOp w).toNat = 2) (ha : (fieldA w).toNat = a) :
    decode ⟨w, ts⟩ = .ok (.descr a) := by simp only [decode, h, ha]
theorem decode_xorm {a : Nat} {b : Byte} (h : (fieldOp w).toNat = 3) (ha : (fieldA w).toNat = a) (hb : fieldB w = b) :
    decode ⟨w, ts⟩ = .ok (.xorm a b) := by simp only [decode, h, ha, hb]
theorem decode_length (h : (fieldOp w).toNat = 4) : decode ⟨w, ts⟩ = .ok .length := by simp only [decode, h]
theorem decode_isvalid (h : (fieldOp w).toNat = 5) : decode ⟨w, ts⟩ = .ok .isvalid := by simp only [decode, h]
theorem decode_recvat (h : (fieldOp w).toNat = 6) : decode ⟨w, ts⟩ = .ok .recvat := by simp only [decode, h]
theorem decode_type (h : (fieldOp w).toNat = 7) : decode ⟨w, ts⟩ = .ok .type := by simp only [decode, h]
theorem decode_typestr (h : (fieldOp w).toNat = 8) : decode ⟨w, ts⟩ = .ok .typestr := by simp only [decode, h]
theorem decode_alt (h : (fieldOp w).toNat = 9) : decode ⟨w, ts⟩ = .ok .alt := by simp only [decode, h]
theorem decode_lat (h : (fieldOp w).toNat = 10) : decode ⟨w, ts⟩ = .ok .lat := by simp only [decode, h]
theorem decode_lon (h : (fieldOp w).toNat = 11) : decode ⟨w, ts⟩ = .ok .lon := by simp only [decode, h]
theorem decode_vbat (h : (fieldOp w).toNat = 12) : decode ⟨w, ts⟩ = .ok .vbat := by simp only [decode, h]
theorem decode_serial (h : (fieldOp w).toNat = 13) : decode ⟨w, ts⟩ = .ok .serial := by simp only [decode, h]
theorem decode_crcok (h : (fieldOp w).toNat = 14) : decode ⟨w, ts⟩ = .ok .crcok := by simp only [decode, h]
theorem decode_symfmt (h : (fieldOp w).toNat = 15) : decode ⟨w, ts⟩ = .ok .symfmt := by simp only [decode, h]

end rows

end Sys2Proof
end

