-- ==== Sys2Proof/Laws/Memory.lean ====
section
/-! SUPPORT. The frame's cells: read after write, the canonical form, and what binding a frame stores. -/

namespace Sys2Proof.Machine

theorem Memory.read_write_same (m : Memory) (a : Nat) (b : Byte) (h : Memory.wf m) :
    Memory.read (Memory.write m a b) a = b := by
  obtain ⟨hs, -⟩ := h
  induction m with
  | nil => unfold Memory.write; split <;> simp_all [Memory.read]
  | cons c rest ih =>
    obtain ⟨k, v⟩ := c
    rw [List.pairwise_cons] at hs
    have absent : k > a ∨ k = a → Memory.read rest a = Memory.unlisted := by
      intro hk
      have : ∀ c ∈ rest, c.1 ≠ a := fun c hc => by have := hs.1 c hc; simp only at this; omega
      clear ih hs
      induction rest with
      | nil => rfl
      | cons d rest ih =>
        rw [Memory.read, if_neg (this d (by simp))]
        exact ih fun c hc => this c (by simp [hc])
    unfold Memory.write
    split
    · rw [Memory.read, if_neg (by omega)]; exact ih hs.2
    · split
      · split
        · simp_all
        · simp [Memory.read]
      · split
        · rw [Memory.read, if_neg (by assumption), absent (by omega)]; simp_all
        · simp [Memory.read]

theorem Memory.read_write_other (m : Memory) (a a' : Nat) (b : Byte) (h : a' ≠ a) (hs : Memory.wf m) :
    Memory.read (Memory.write m a b) a' = Memory.read m a' := by
  obtain ⟨hs, -⟩ := hs
  induction m with
  | nil => unfold Memory.write; split <;> simp [Memory.read, Ne.symm h]
  | cons c rest ih =>
    obtain ⟨k, v⟩ := c
    rw [List.pairwise_cons] at hs
    unfold Memory.write
    split
    · simp only [Memory.read, ih hs.2]
    · split
      · split <;> simp_all [Memory.read, Ne.symm h]
      · split <;> simp [Memory.read, Ne.symm h]

/-- A cell of the written memory is the written one or was there before. -/
theorem Memory.mem_write {m : Memory} {a : Nat} {b : Byte} {c : Host.Cell} (h : c ∈ Memory.write m a b) :
    (c = (a, b) ∧ b ≠ Memory.unlisted) ∨ c ∈ m := by
  induction m with
  | nil => unfold Memory.write at h; split at h <;> simp_all
  | cons d rest ih =>
    obtain ⟨k, v⟩ := d
    unfold Memory.write at h
    split at h
    · rcases List.mem_cons.1 h with h | h
      · exact .inr (by simp [h])
      · exact (ih h).imp_right (by simp_all)
    · split at h
      · split at h
        · exact .inr (by simp [h])
        · rcases List.mem_cons.1 h with h | h
          · exact .inl ⟨h, by assumption⟩
          · exact .inr (by simp [h])
      · split at h
        · exact .inr h
        · rcases List.mem_cons.1 h with h | h
          · exact .inl ⟨h, by assumption⟩
          · exact .inr h

/-- Every write keeps the canonical form. -/
theorem Memory.write_wf (m : Memory) (a : Nat) (b : Byte) (h : Memory.wf m) : Memory.wf (Memory.write m a b) := by
  refine ⟨?_, fun c hc => ?_⟩
  · obtain ⟨hs, -⟩ := h
    induction m with
    | nil => unfold Memory.write; split <;> simp
    | cons c rest ih =>
      obtain ⟨k, v⟩ := c
      have hs' := hs
      rw [List.pairwise_cons] at hs
      unfold Memory.write
      split
      · rw [List.pairwise_cons]
        refine ⟨fun d hd => ?_, ih hs.2⟩
        rcases Memory.mem_write hd with ⟨rfl, -⟩ | hd
        · assumption
        · exact hs.1 d hd
      · split
        · split
          · exact hs.2
          · rw [List.pairwise_cons]
            exact ⟨fun d hd => by have := hs.1 d hd; simp_all, hs.2⟩
        · split
          · exact hs'
          · rw [List.pairwise_cons]
            refine ⟨fun d hd => ?_, hs'⟩
            rcases List.mem_cons.1 hd with rfl | hd
            · simp only; omega
            · have := hs.1 d hd; simp only at this ⊢; omega
  · rcases Memory.mem_write hc with ⟨rfl, hb⟩ | hc
    · exact hb
    · exact h.2 c hc

/-- Binding keeps the canonical form. -/
theorem loadBytes_wf (n : Nat) (m : Memory) (k : Nat) (bytes : List Byte) (h : Memory.wf m) :
    Memory.wf (loadBytes n m k bytes) := by
  induction bytes generalizing m k with
  | nil => exact h
  | cons b rest ih => exact ih _ _ (Memory.write_wf m k _ h)

/-- What a loaded memory reads: the loaded byte, clipped to the frame, or what was there. -/
theorem loadBytes_read (n : Nat) (m : Memory) (k : Nat) (bytes : List Byte) (a : Nat) (h : Memory.wf m) :
    Memory.read (loadBytes n m k bytes) a =
      if k ≤ a ∧ a < k + bytes.length then clipByte n a (bytes.getD (a - k) 0) else Memory.read m a := by
  induction bytes generalizing m k with
  | nil => rw [if_neg (by simp), loadBytes]
  | cons b rest ih =>
    rw [loadBytes, ih _ _ (Memory.write_wf m k _ h), List.length_cons]
    by_cases ha : a = k
    · subst ha
      rw [if_neg (by omega), if_pos (by omega), Memory.read_write_same m a _ h]; simp
    · rw [Memory.read_write_other m k a _ ha h]
      by_cases hk : k + 1 ≤ a ∧ a < k + 1 + rest.length
      · rw [if_pos hk, if_pos (by omega), show a - k = a - (k + 1) + 1 by omega, List.getD_cons_succ]
      · rw [if_neg hk, if_neg (by omega)]

/-- Reset's memory has the canonical form. -/
theorem State.reset_mem_wf : Memory.wf State.reset.mem := by decide

/-- So has every bound frame, whatever it is bound over. -/
theorem State.bindFrame_mem_wf (s : State) (n : BitVec 32) (bytes : List Byte) : Memory.wf (s.bindFrame n bytes).mem :=
  loadBytes_wf _ _ _ _ State.reset_mem_wf

end Sys2Proof.Machine
end

