-- ==== Sys2Proof/Laws/State.lean ====
section
/-! SUPPORT. One lemma per field per update of the state, so that no proof unfolds a record update. -/

namespace Sys2Proof.Machine

@[simp] theorem State.latch_sondeType (s : State) (t : SondeType) (v : Timestamp) : (s.latch t v).sondeType = t := rfl
@[simp] theorem State.latch_ts (s : State) (t : SondeType) (v : Timestamp) : (s.latch t v).ts = v := rfl
@[simp] theorem State.latch_frameLen (s : State) (t : SondeType) (v : Timestamp) : (s.latch t v).frameLen = s.frameLen := rfl
@[simp] theorem State.latch_mem (s : State) (t : SondeType) (v : Timestamp) : (s.latch t v).mem = s.mem := rfl
@[simp] theorem State.latch_mask (s : State) (t : SondeType) (v : Timestamp) : (s.latch t v).mask = s.mask := rfl
@[simp] theorem State.latch_pending (s : State) (t : SondeType) (v : Timestamp) : (s.latch t v).pending = s.pending := rfl
@[simp] theorem State.latch_resp (s : State) (t : SondeType) (v : Timestamp) : (s.latch t v).resp = s.resp := rfl

@[simp] theorem State.answer_sondeType (s : State) (r : Response) : (s.answer r).sondeType = s.sondeType := rfl
@[simp] theorem State.answer_ts (s : State) (r : Response) : (s.answer r).ts = s.ts := rfl
@[simp] theorem State.answer_frameLen (s : State) (r : Response) : (s.answer r).frameLen = s.frameLen := rfl
@[simp] theorem State.answer_mem (s : State) (r : Response) : (s.answer r).mem = s.mem := rfl
@[simp] theorem State.answer_mask (s : State) (r : Response) : (s.answer r).mask = s.mask := rfl
@[simp] theorem State.answer_pending (s : State) (r : Response) : (s.answer r).pending = s.pending := rfl
@[simp] theorem State.answer_resp (s : State) (r : Response) : (s.answer r).resp = some r := rfl

@[simp] theorem State.respond_sondeType (s : State) (ts : Timestamp) (val : Int) (str err : Str) : (s.respond ts val str err).sondeType = s.sondeType := rfl
@[simp] theorem State.respond_ts (s : State) (ts : Timestamp) (val : Int) (str err : Str) : (s.respond ts val str err).ts = s.ts := rfl
@[simp] theorem State.respond_frameLen (s : State) (ts : Timestamp) (val : Int) (str err : Str) : (s.respond ts val str err).frameLen = s.frameLen := rfl
@[simp] theorem State.respond_mem (s : State) (ts : Timestamp) (val : Int) (str err : Str) : (s.respond ts val str err).mem = s.mem := rfl
@[simp] theorem State.respond_mask (s : State) (ts : Timestamp) (val : Int) (str err : Str) : (s.respond ts val str err).mask = s.mask := rfl
@[simp] theorem State.respond_pending (s : State) (ts : Timestamp) (val : Int) (str err : Str) : (s.respond ts val str err).pending = s.pending := rfl
@[simp] theorem State.respond_resp (s : State) (ts : Timestamp) (val : Int) (str err : Str) : (s.respond ts val str err).resp = some { val := val, str := str, err := err, ts := ts } := rfl

@[simp] theorem State.accept_sondeType (s : State) (rest : List Request) : (s.accept rest).sondeType = s.sondeType := rfl
@[simp] theorem State.accept_ts (s : State) (rest : List Request) : (s.accept rest).ts = s.ts := rfl
@[simp] theorem State.accept_frameLen (s : State) (rest : List Request) : (s.accept rest).frameLen = s.frameLen := rfl
@[simp] theorem State.accept_mem (s : State) (rest : List Request) : (s.accept rest).mem = s.mem := rfl
@[simp] theorem State.accept_mask (s : State) (rest : List Request) : (s.accept rest).mask = s.mask := rfl
@[simp] theorem State.accept_pending (s : State) (rest : List Request) : (s.accept rest).pending = rest := rfl
@[simp] theorem State.accept_resp (s : State) (rest : List Request) : (s.accept rest).resp = s.resp := rfl

@[simp] theorem State.present_sondeType (s : State) (r : Request) : (s.present r).sondeType = s.sondeType := rfl
@[simp] theorem State.present_ts (s : State) (r : Request) : (s.present r).ts = s.ts := rfl
@[simp] theorem State.present_frameLen (s : State) (r : Request) : (s.present r).frameLen = s.frameLen := rfl
@[simp] theorem State.present_mem (s : State) (r : Request) : (s.present r).mem = s.mem := rfl
@[simp] theorem State.present_mask (s : State) (r : Request) : (s.present r).mask = s.mask := rfl
@[simp] theorem State.present_pending (s : State) (r : Request) : (s.present r).pending = r :: s.pending := rfl
@[simp] theorem State.present_resp (s : State) (r : Request) : (s.present r).resp = s.resp := rfl

@[simp] theorem State.bindFrame_sondeType (s : State) (n : BitVec 32) (bytes : List Byte) : (s.bindFrame n bytes).sondeType = s.sondeType := rfl
@[simp] theorem State.bindFrame_ts (s : State) (n : BitVec 32) (bytes : List Byte) : (s.bindFrame n bytes).ts = s.ts := rfl
@[simp] theorem State.bindFrame_frameLen (s : State) (n : BitVec 32) (bytes : List Byte) : (s.bindFrame n bytes).frameLen = n := rfl
@[simp] theorem State.bindFrame_mem (s : State) (n : BitVec 32) (bytes : List Byte) : (s.bindFrame n bytes).mem = loadBytes n.toNat [] 0 bytes := rfl
@[simp] theorem State.bindFrame_mask (s : State) (n : BitVec 32) (bytes : List Byte) : (s.bindFrame n bytes).mask = s.mask := rfl
@[simp] theorem State.bindFrame_pending (s : State) (n : BitVec 32) (bytes : List Byte) : (s.bindFrame n bytes).pending = s.pending := rfl
@[simp] theorem State.bindFrame_resp (s : State) (n : BitVec 32) (bytes : List Byte) : (s.bindFrame n bytes).resp = s.resp := rfl

/-! The response shapes are `respond` with defaults. -/

@[simp] theorem State.respondVal_eq (s : State) (i : Instr) (v : Int) : s.respondVal i v = s.respond (s.freeTs i) v [] [] := rfl
@[simp] theorem State.respondStr_eq (s : State) (i : Instr) (t : Str) : s.respondStr i t = s.respond (s.freeTs i) 0 t [] := rfl
@[simp] theorem State.respondDefault_eq (s : State) (i : Instr) : s.respondDefault i = s.respond (s.freeTs i) 0 [] [] := rfl
@[simp] theorem State.respondTs_eq (s : State) (v : Timestamp) : s.respondTs v = s.respond v 0 [] [] := rfl

end Sys2Proof.Machine
end

