-- ==== Sys2Proof/Laws/Ops.lean ====
section
/-! SUPPORT. Once for each shared operation, what it can do; callers cite these and do not unfold. -/

namespace Sys2Proof.Machine

/-! ### Reads look at the frame only -/

/-- An operation that changes nothing but the response changes no input of a response. -/
theorem OnlyResponseDiffers.sameInputs {s t : State} (h : OnlyResponseDiffers s t) : SameInputs s t :=
  ⟨h.2.2.1.1, h.1, h.2.1, h.2.2.2.1, fun j _ => by rw [State.F, State.F, h.2.2.1.2]⟩

theorem State.F_congr {s t : State} (h : t.mem = s.mem) (i : Nat) : t.F i = s.F i := by
  rw [State.F, State.F, h]

/-- The loop depends on the bits it passes and on nothing else. -/
theorem State.gather_congr {s t : State} (off w v : Nat) (h : ∀ j < w, t.F (off + j) = s.F (off + j)) :
    t.gather off w v = s.gather off w v := by
  induction w generalizing off v with
  | zero => rfl
  | succ w ih =>
    rw [State.gather, State.gather, show t.F off = s.F off by simpa using h 0 (by omega)]
    exact ih _ _ fun j hj => by
      have := h (j + 1) (by omega)
      rwa [show off + (j + 1) = off + 1 + j by omega] at this

/-- The loop appends the bits it passes to `v`. -/
theorem State.gather_eq (s : State) (off w v : Nat) : s.gather off w v = v * 2 ^ w + s.gather off w 0 := by
  induction w generalizing off v with
  | zero => simp [State.gather]
  | succ w ih =>
    rw [State.gather, ih, State.gather, ih (off + 1) (2 * 0 + _)]
    ring

theorem State.gather_lt (s : State) (off w : Nat) : s.gather off w 0 < 2 ^ w := by
  induction w generalizing off with
  | zero => simp [State.gather]
  | succ w ih =>
    rw [State.gather, State.gather_eq, pow_succ]
    have := ih (off + 1)
    have hb : (s.F off).toNat ≤ 1 := Bool.toNat_le _
    nlinarith

/-- A read beyond the frame is 0 (`40_bitfield_extractor.md` R46). -/
theorem State.BR_out (s : State) (off w : Nat) (h : s.N < off + w) : s.BR off w = 0 := if_pos h

/-- A read within the frame is the loop's result (`40_bitfield_extractor.md` R45). -/
theorem State.BR_in (s : State) (off w : Nat) (h : off + w ≤ s.N) : s.BR off w = s.gather off w 0 := if_neg (by omega)

theorem State.BR_lt (s : State) (off w : Nat) : s.BR off w < 2 ^ w := by
  rw [State.BR]; split
  · positivity
  · exact s.gather_lt off w

section congr
variable {s t : State} (hn : t.frameLen = s.frameLen) (hF : ∀ j < s.N, t.F j = s.F j)
include hn hF

/-- A read depends on the bits of the frame and its length only (`40_bitfield_extractor.md` R52). -/
theorem State.BR_congr (off w : Nat) : t.BR off w = s.BR off w := by
  have hN : t.N = s.N := by rw [State.N, State.N, hn]
  by_cases h : off + w ≤ s.N
  · rw [State.BR_in _ _ _ h, State.BR_in _ _ _ (hN ▸ h), State.gather_congr off w 0 fun j hj => hF _ (by omega)]
  · rw [State.BR_out _ _ _ (by omega), State.BR_out _ _ _ (by omega)]

theorem State.rawByte_congr (k : Nat) : t.rawByte k = s.rawByte k := by
  simp only [State.rawByte, State.BR_congr hn hF]

theorem State.D_congr (hk : t.mask = s.mask) (k : Nat) : t.D k = s.D k := by
  simp only [State.D, State.descramble, State.rawByte_congr hn hF, hk]

theorem State.sym_congr (hk : t.mask = s.mask) : t.sym = s.sym := by
  simp only [State.sym, State.N, State.D_congr hn hF hk, hn]

theorem State.frameBits_congr : t.frameBits = s.frameBits := by
  rw [State.frameBits, State.frameBits, State.N, hn]
  exact List.map_congr_left fun j hj => hF j (List.mem_range.mp hj)

theorem State.typeFor_congr (hint : BitVec 3) : t.typeFor hint = s.typeFor hint := by
  simp only [State.typeFor, State.resolve, State.BR_congr hn hF]

theorem State.readFrame_congr : t.readFrame = s.readFrame := by
  rw [State.readFrame, State.readFrame, State.frameBits_congr hn hF, hn]

theorem State.readDescrambled_congr (hk : t.mask = s.mask) : t.readDescrambled = s.readDescrambled := by
  rw [State.readDescrambled, State.readDescrambled, State.readFrame_congr hn hF, hk]

/-- No operation's reads go beyond `TYPE`, `F`, `N` and `MASK`. -/
theorem State.reads_congr (ht : t.sondeType = s.sondeType) (hk : t.mask = s.mask) (i : Instr) : t.reads i = s.reads i := by
  cases i <;> simp only [State.reads, State.readByType, State.readFrame_congr hn hF, State.readDescrambled_congr hn hF hk, ht, hk, hn]

end congr

theorem State.cs_congr {s t : State} (i : Nat) (hF : ∀ j < i, t.F j = s.F j) : t.cs i = s.cs i := by
  induction i with
  | zero => rfl
  | succ i ih => rw [State.cs, State.cs, ih fun j hj => hF j (by omega), hF i (by omega)]

/-- The unspecified `ts` is one function of the request and of what the operation reads. -/
theorem State.freeTs_congr {s t : State} {i : Instr} (h : t.reads i = s.reads i) : t.freeTs i = s.freeTs i := by
  rw [State.freeTs, State.freeTs, h]

/-- The type a Meteomodem frame has keeps the mask out of what the operations of the field table and CRCOK read
(`43_field_table.md` R92). -/
theorem State.readByType_meteomodem {s : State} (h : s.sondeType = .meteomodemM10 ∨ s.sondeType = .meteomodemM2K2)
    (u r x : Config.StateRead) : s.readByType u r r x = { r with sondeType := some s.sondeType } := by
  rcases h with h | h <;> rw [State.readByType, h] <;> rfl

/-! ### Responses -/

/-- Answering changes the response only. -/
theorem State.respond_onlyResponse (s : State) (ts : Timestamp) (val : Int) (str err : Str) :
    OnlyResponseDiffers s (s.respond ts val str err) := ⟨rfl, rfl, ⟨rfl, fun _ => rfl⟩, rfl, rfl⟩

theorem State.answer_onlyResponse (s : State) (r : Response) : OnlyResponseDiffers s (s.answer r) :=
  ⟨rfl, rfl, ⟨rfl, fun _ => rfl⟩, rfl, rfl⟩

/-- An operation whose meaning is one `respond` answers exactly what it was given. -/
theorem answers_of_respond {i : Instr} {s : State} {val : Int} {str err : Str}
    (h : exec i s = .next (s.respond (s.freeTs i) val str err)) : Answers i s val str err :=
  ⟨_, _, h, rfl, rfl, rfl, rfl, s.respond_onlyResponse (s.freeTs i) val str err⟩

/-- What a step can do: wait, run the decoded instruction, or answer a reserved code. -/
theorem step_cases (s : State) :
    (s.pending = [] ∧ step s = .next s) ∨
    (∃ r rest i, s.pending = r :: rest ∧ decode r = .ok i ∧ step s = exec i (s.accept rest)) ∨
    (∃ r rest op, s.pending = r :: rest ∧ decode r = .error (.reservedOp op) ∧
      step s = .next ((s.accept rest).respond (reservedTs op) 0 [] [])) := by
  unfold step
  split
  · exact .inl ⟨by assumption, rfl⟩
  · rename_i r rest hp
    refine .inr ?_
    split
    · exact .inl ⟨r, rest, _, hp, by assumption, rfl⟩
    · exact .inr ⟨r, rest, _, hp, by assumption, rfl⟩

/-- A run goes on from the state a step answers. -/
theorem run_of_step {s t : State} (k : Nat) (h : step s = .next t) :
    Host.Core.run Sys2Proof.core (k + 1) s = Host.Core.run Sys2Proof.core k t := by
  have run_succ : ∀ (M : Host.Core) (k : Nat) (a b : M.State), M.step a = .next b → M.run (k + 1) a = M.run k b :=
    fun M k a b h => by rw [Host.Core.run, h]
  exact run_succ Sys2Proof.core k s t h

/-- What an instruction can do: CONSTRUCT latches and answers the default, RECVAT answers `TS`, every other one answers
with the `ts` left free. -/
theorem exec_cases (i : Instr) (s : State) :
    (∃ hint tsIn, i = .construct hint tsIn ∧ exec i s = .next ((s.latch (s.typeFor hint) tsIn).respond (s.freeTs i) 0 [] [])) ∨
    (i = .recvat ∧ exec i s = .next (s.respond s.ts 0 [] [])) ∨
    (isConstruct i = false ∧ i ≠ .recvat ∧ ∃ val str, exec i s = .next (s.respond (s.freeTs i) val str [])) := by
  cases i with
  | construct hint tsIn => exact .inl ⟨hint, tsIn, rfl, rfl⟩
  | recvat => exact .inr (.inl ⟨rfl, rfl⟩)
  | read bitOffset width =>
    refine .inr (.inr ⟨rfl, by simp, ?_⟩)
    rw [exec, execRead]
    split
    · exact ⟨_, _, rfl⟩
    · exact ⟨_, _, rfl⟩
  | descr _ | xorm _ _ | length | isvalid | type | typestr | alt | lat | lon | vbat | serial | crcok | symfmt =>
    exact .inr (.inr ⟨rfl, by simp, _, _, rfl⟩)

end Sys2Proof.Machine
end

