-- ==== Sys2Proof/Laws/PerInstr.lean ====
section
/-! SUPPORT. Family `RowMatch`: the word of an instruction lies in its opcode-table row, mask `0x1F0000000000` and match
`op * 2^40` (`30_encoding.md` R40), one lemma per constructor. -/

namespace Sys2Proof.Laws.RowMatch

/-- The encoded word has its row's fixed bits. -/
def Statement (i : Instr) : Prop :=
  (encode i).word &&& 0x1F0000000000#45 = (opcode i).setWidth 45 <<< 40

theorem and_requestWord (op op' : BitVec 5) (a a' : BitVec 32) (b b' : BitVec 8) :
    requestWord op a b &&& requestWord op' a' b' = requestWord (op &&& op') (a &&& a') (b &&& b') :=
  (BitVec.and_append (x₁ := op ++ a) (x₂ := op' ++ a')).trans
    (congrArg (fun x => x ++ (b &&& b')) (BitVec.and_append (x₁ := op) (x₂ := op')))

/-- Masking with the row's mask leaves the operation code in place. -/
theorem mask_requestWord (op : BitVec 5) (a : BitVec 32) (b : BitVec 8) :
    requestWord op a b &&& 0x1F0000000000#45 = op.setWidth 45 <<< 40 := by
  have hm : 0x1F0000000000#45 = requestWord 0x1F 0 0 := by decide
  have hs : op.setWidth 45 <<< 40 = requestWord op 0 0 := by revert op; decide
  have ho : op &&& 0x1F = op := by revert op; decide
  rw [hm, hs, and_requestWord, ho]
  simp only [BitVec.ofNat_eq_ofNat, BitVec.and_zero]

theorem construct (hint : BitVec 3) (tsIn : Timestamp) : Statement (.construct hint tsIn) := mask_requestWord _ _ _
theorem read (bitOffset width : Nat) : Statement (.read bitOffset width) := mask_requestWord _ _ _
theorem descr (byteIndex : Nat) : Statement (.descr byteIndex) := mask_requestWord _ _ _
theorem xorm (index : Nat) (value : Byte) : Statement (.xorm index value) := mask_requestWord _ _ _
theorem length : Statement .length := mask_requestWord _ _ _
theorem isvalid : Statement .isvalid := mask_requestWord _ _ _
theorem recvat : Statement .recvat := mask_requestWord _ _ _
theorem type : Statement .type := mask_requestWord _ _ _
theorem typestr : Statement .typestr := mask_requestWord _ _ _
theorem alt : Statement .alt := mask_requestWord _ _ _
theorem lat : Statement .lat := mask_requestWord _ _ _
theorem lon : Statement .lon := mask_requestWord _ _ _
theorem vbat : Statement .vbat := mask_requestWord _ _ _
theorem serial : Statement .serial := mask_requestWord _ _ _
theorem crcok : Statement .crcok := mask_requestWord _ _ _
theorem symfmt : Statement .symfmt := mask_requestWord _ _ _

end Sys2Proof.Laws.RowMatch
end

