-- ==== Sys2Proof/Machine/Assembler.lean ====
section
/-! DEFINITION. The spec's way of writing an operation down (`30_encoding.md` R43) and its pseudo-operations (R44). No meaning
rests on this file. -/

namespace Sys2Proof.Machine

/-- The ASCII codes of characters. -/
def ascii (cs : List Char) : Str := cs.map (fun c => BitVec.ofNat 8 c.toNat)

/-- The mnemonics of `30_encoding.md` R40. -/
def mnemonic : Instr → Str
  | .construct _ _ => ascii ['C', 'O', 'N', 'S', 'T', 'R', 'U', 'C', 'T']
  | .read _ _ => ascii ['R', 'E', 'A', 'D']
  | .descr _ => ascii ['D', 'E', 'S', 'C', 'R']
  | .xorm _ _ => ascii ['X', 'O', 'R', 'M']
  | .length => ascii ['L', 'E', 'N', 'G', 'T', 'H']
  | .isvalid => ascii ['I', 'S', 'V', 'A', 'L', 'I', 'D']
  | .recvat => ascii ['R', 'E', 'C', 'V', 'A', 'T']
  | .type => ascii ['T', 'Y', 'P', 'E']
  | .typestr => ascii ['T', 'Y', 'P', 'E', 'S', 'T', 'R']
  | .alt => ascii ['A', 'L', 'T']
  | .lat => ascii ['L', 'A', 'T']
  | .lon => ascii ['L', 'O', 'N']
  | .vbat => ascii ['V', 'B', 'A', 'T']
  | .serial => ascii ['S', 'E', 'R', 'I', 'A', 'L']
  | .crcok => ascii ['C', 'R', 'C', 'O', 'K']
  | .symfmt => ascii ['S', 'Y', 'M', 'F', 'M', 'T']

/-- The short name of a hint (`30_encoding.md` R38); a reserved code has none and is written as its number. -/
def hintName (hint : BitVec 3) : Str :=
  match hint.toNat with
  | 0 => ascii ['U', 'n', 'k', 'n', 'o', 'w', 'n']
  | 1 => ascii ['M', 'U', 'n', 'k']
  | 2 => ascii ['M', '1', '0']
  | 3 => ascii ['M', '2', 'K', '2']
  | 4 => ascii ['R', 'S', '4', '1', 'S', 'G']
  | n => numeral n

/-- The operands in the order R43 writes them, decimal, timestamps as the implementation writes them (log 19). -/
def operandTexts : Instr → List Str
  | .construct hint tsIn => [hintName hint, Config.timestampText tsIn]
  | .read bitOffset width => [numeral bitOffset, numeral width]
  | .descr byteIndex => [numeral byteIndex]
  | .xorm index value => [numeral index, numeral value.toNat]
  | .length => []
  | .isvalid => []
  | .recvat => []
  | .type => []
  | .typestr => []
  | .alt => []
  | .lat => []
  | .lon => []
  | .vbat => []
  | .serial => []
  | .crcok => []
  | .symfmt => []

/-- Texts after a leading space, comma separated. -/
def joinOperands : List Str → Str
  | [] => []
  | [t] => [space] ++ t
  | t :: rest => [space] ++ t ++ ascii [','] ++ joinOperands rest

/-- An operation as R43 writes it: the mnemonic, then the operands. -/
def assembly (i : Instr) : Str := mnemonic i ++ joinOperands (operandTexts i)

/-- `BYTE k`, also `frame_byte[k]`: the raw byte (R44). -/
def pseudoByte (k : Nat) : Instr := .read (8 * k) 8

/-- `DISC`: the discriminator (R44). -/
def pseudoDisc : Instr := .read 0 16

/-- `NEW t, ts`: CONSTRUCT presented to a fresh instance bound to a frame (R44). -/
def pseudoNew (n : BitVec 32) (bytes : List Byte) (hint : BitVec 3) (ts : Timestamp) : State :=
  (State.reset.bindFrame n bytes).present (encode (.construct hint ts))

end Sys2Proof.Machine
end

