-- ==== Sys2Proof/Tests/Slice0.lean ====
section
/-! SUPPORT. The model's own tests. Every expected value is the spec's: the vectors V<n> and programs P<n> of `95_test_vectors.md`, the
examples in the rules, the encodings of `30_encoding.md`. Vectors marked [MASK_candidate] there use the candidate table of
`93_implementation_defined.md` G1, which stands here only. The witnesses at the end meet the hypotheses of the
statements. -/

namespace Sys2Proof.Tests
open Sys2Proof.Machine

/-! ### Frames and observations -/

/-- The candidate mask of G1: from general knowledge, not normative, used for the vectors marked with it. -/
def maskCandidate : Vector Byte 64 := #v[
  0x96, 0x83, 0x3E, 0x51, 0xB1, 0x49, 0x08, 0x98, 0x32, 0x05, 0x59, 0x0E, 0xF9, 0x44, 0xC6, 0x26,
  0x21, 0x60, 0xC2, 0xEA, 0x79, 0x5D, 0x6D, 0xA1, 0x54, 0x69, 0x47, 0x0C, 0xDC, 0xE8, 0x5C, 0xF1,
  0xF7, 0x76, 0x82, 0x7F, 0x07, 0x99, 0xA2, 0x2C, 0x93, 0x7C, 0x30, 0x63, 0xF5, 0x10, 0x2E, 0x61,
  0xD0, 0xBC, 0xB4, 0xB6, 0x06, 0xAA, 0xF4, 0x23, 0x78, 0x6E, 0x3B, 0xAE, 0xBF, 0x7B, 0x4C, 0xC1]

/-- An instance of type `t` bound to the first `n` bits of `bytes`, with the candidate mask. -/
def bound (t : SondeType) (n : Nat) (bytes : List Byte) : State :=
  { State.reset.bindFrame (BitVec.ofNat 32 n) bytes with sondeType := t, mask := maskCandidate }

def zeros (n : Nat) : List Byte := List.replicate n 0
def ones (n : Nat) : List Byte := List.replicate n 0xFF

/-- Frame A of part 2.1. -/
def frameA : List Byte := [0x64, 0x9F, 0xA5]

/-- The frame of program P1: all bytes 0 but those listed there. -/
def frameP1 : List Byte :=
  [0x64, 0x9F] ++ zeros 12 ++ [0x20, 0, 0, 0, 0x01, 0, 0, 0, 0x00, 0x0F, 0xFD, 0xC0] ++ zeros 43 ++ [0x84, 0x03] ++
    zeros 22 ++ [0x0A, 0x00, 0x3C, 0xA4, 0xD2] ++ zeros 1 ++ [0x18, 0xD7]

/-- The frame of program P2 under the candidate mask. -/
def frameP2 : List Byte :=
  zeros 57 ++ [0x28, 0x7D, 0xF3, 0xA5, 0xB7, 0x0B, 0x67, 0x86, 0x52] ++ zeros 214 ++ [0xDC, 0xE7, 0xA1, 0x31]

/-- The response an operation gives, if it gives one. -/
def responseOf (i : Instr) (s : State) : Option Response :=
  match exec i s with
  | .next t => t.resp
  | .fault _ => none
  | .refused _ => none

def valOf (i : Instr) (s : State) : Option Int := (responseOf i s).map Response.val
def strOf (i : Instr) (s : State) : Option Str := (responseOf i s).map Response.str

/-- The type held after an operation. -/
def typeAfter (i : Instr) (s : State) : Option SondeType :=
  match exec i s with
  | .next t => some t.sondeType
  | .fault _ => none
  | .refused _ => none

/-! ### WellFormed: a term each check refuses -/

theorem test_illFormed_read_offset : (Instr.read (2 ^ 32) 1).wellFormed = false := by decide
theorem test_illFormed_read_width : (Instr.read 0 256).wellFormed = false := by decide
theorem test_illFormed_descr : (Instr.descr (2 ^ 32)).wellFormed = false := by decide
theorem test_illFormed_xorm : (Instr.xorm (2 ^ 32) 0).wellFormed = false := by decide
theorem test_wellFormed_reservedWidth : (Instr.read 0 0).wellFormed = true ∧ (Instr.construct 7 default).wellFormed = true := by
  decide

/-! ### Decoding: a word of each row, written out from R34, R40 and the req columns of the vectors -/

theorem test_decode_construct (ts : Timestamp) : decode ⟨0x00FFFFFFF900, ts⟩ = .ok (.construct 1 ts) :=
  decode_construct (by decide) (by decide) -- V33b
theorem test_decode_read (ts : Timestamp) : decode ⟨0b00001_00000000000000000000001100000011_00001101, ts⟩ = .ok (.read 771 13) :=
  decode_read (by decide) (by decide) (by decide)
theorem test_decode_descr (ts : Timestamp) : decode ⟨0b00010_00000000000000000000000100011000_11111111, ts⟩ = .ok (.descr 280) :=
  decode_descr (by decide) (by decide)
theorem test_decode_xorm (ts : Timestamp) : decode ⟨0x030000003953, ts⟩ = .ok (.xorm 57 0x53) :=
  decode_xorm (by decide) (by decide) (by decide) -- V22
theorem test_decode_length (ts : Timestamp) : decode ⟨0x040000000000, ts⟩ = .ok .length :=
  decode_length (by decide) -- V67
theorem test_decode_isvalid (ts : Timestamp) : decode ⟨0x050000000000, ts⟩ = .ok .isvalid :=
  decode_isvalid (by decide) -- V71
theorem test_decode_recvat (ts : Timestamp) : decode ⟨0x060000000000, ts⟩ = .ok .recvat :=
  decode_recvat (by decide) -- V72
theorem test_decode_type (ts : Timestamp) : decode ⟨0x070000000000, ts⟩ = .ok .type :=
  decode_type (by decide) -- P1 step 2
theorem test_decode_typestr (ts : Timestamp) : decode ⟨0x080000000000, ts⟩ = .ok .typestr :=
  decode_typestr (by decide) -- V72a
theorem test_decode_alt (ts : Timestamp) : decode ⟨0b01001_11111111111111111111111111111111_11111111, ts⟩ = .ok .alt :=
  decode_alt (by decide) -- R35
theorem test_decode_lat (ts : Timestamp) : decode ⟨0x0A0000000000, ts⟩ = .ok .lat :=
  decode_lat (by decide) -- P1 step 8
theorem test_decode_lon (ts : Timestamp) : decode ⟨0x0B0000000000, ts⟩ = .ok .lon :=
  decode_lon (by decide) -- P1 step 9
theorem test_decode_vbat (ts : Timestamp) : decode ⟨0x0C0000000000, ts⟩ = .ok .vbat :=
  decode_vbat (by decide) -- P1 step 10
theorem test_decode_serial (ts : Timestamp) : decode ⟨0x0D0000000000, ts⟩ = .ok .serial :=
  decode_serial (by decide) -- P1 step 11
theorem test_decode_crcok (ts : Timestamp) : decode ⟨0x0E0000000000, ts⟩ = .ok .crcok :=
  decode_crcok (by decide) -- P1 step 15
theorem test_decode_symfmt (ts : Timestamp) : decode ⟨0x0F0000000000, ts⟩ = .ok .symfmt :=
  decode_symfmt (by decide) -- V67a
theorem test_decode_reserved (ts : Timestamp) : decode ⟨0x100000000000, ts⟩ = .error (.reservedOp 0x10) :=
  (decode_reserved ⟨0x100000000000, ts⟩ (show 16 ≤ (fieldOp 0x100000000000#45).toNat by decide)).trans
    (congrArg (fun op => (.error (.reservedOp op) : Except DecodeError Instr)) (show fieldOp 0x100000000000#45 = 0x10 by decide)) -- V72c
theorem test_encode_words : (encode (.read 760 4)).word = 0x01000002F804 ∧ (encode (.construct 4 default)).word = 0x000000000400 ∧
    (encode (.xorm 4294967295 0)).word = 0x03FFFFFFFF00 := by decide -- P1 step 12, V33a, V24
theorem test_table_word : decodeTableWord 48 0x0E0000000000 = some .crcok ∧ decodeTableWord 48 0x1F0000000000 = none := by
  decide
theorem test_fetch_word : (match step (State.reset.withFetchWord 48 0x050000000000) with
    | .next t => t.resp.map Response.val | .fault _ => none | .refused _ => none) = some 1 := by decide -- V71

/-! ### Operations: the spec's vectors -/

theorem test_construct_resolves : -- V27, V28, V29, V30
    typeAfter (.construct 1 default) (bound .unknown 16 [0x64, 0x9F]) = some .meteomodemM10 ∧
    typeAfter (.construct 1 default) (bound .unknown 16 [0x64, 0x8F]) = some .meteomodemM2K2 ∧
    typeAfter (.construct 1 default) (bound .unknown 16 [0x64, 0x9E]) = some .meteomodemUnknown ∧
    typeAfter (.construct 1 default) (bound .unknown 15 [0x64, 0x9F]) = some .meteomodemUnknown := by decide
theorem test_construct_unchecked : -- V31, V32, V33, V33a
    typeAfter (.construct 0 default) (bound .meteomodemM10 24 frameA) = some .unknown ∧
    typeAfter (.construct 3 default) (bound .unknown 24 frameA) = some .meteomodemM2K2 ∧
    typeAfter (.construct 5 default) (bound .meteomodemM10 24 frameA) = some .unknown ∧
    typeAfter (.construct 4 default) (bound .unknown 24 frameA) = some .vaisalaRS41SG := by decide
theorem test_read_inside : -- V1 to V10
    valOf (.read 0 16) (bound .unknown 24 frameA) = some 0x649F ∧ valOf (.read 1 3) (bound .unknown 24 frameA) = some 6 ∧
    valOf (.read 4 8) (bound .unknown 24 frameA) = some 0x49 ∧ valOf (.read 7 2) (bound .unknown 24 frameA) = some 1 ∧
    valOf (.read 20 4) (bound .unknown 24 frameA) = some 5 ∧ valOf (.read 23 1) (bound .unknown 24 frameA) = some 1 ∧
    valOf (.read 0 24) (bound .unknown 24 frameA) = some 0x649FA5 := by decide
theorem test_read_outside : -- V11 to V16
    valOf (.read 23 2) (bound .unknown 24 frameA) = some 0 ∧ valOf (.read 24 1) (bound .unknown 24 frameA) = some 0 ∧
    valOf (.read 0 32) (bound .unknown 24 frameA) = some 0 ∧ valOf (.read 0 0) (bound .unknown 24 frameA) = some 0 ∧
    valOf (.read 0 33) (bound .unknown 64 (ones 8)) = some 0 ∧
    valOf (.read 4294967295 1) (bound .unknown 24 frameA) = some 0 := by decide
theorem test_descr_inside : -- V25, V26 [MASK_candidate]
    valOf (.descr 0) (bound .unknown 24 frameA) = some 0xD5 ∧ valOf (.descr 2) (bound .unknown 24 frameA) = some 0xAD := by
  decide
theorem test_descr_outside : -- V26a, V26b, V26c [MASK_candidate]
    valOf (.descr 3) (bound .unknown 24 frameA) = some 0x98 ∧ valOf (.descr 2) (bound .unknown 20 frameA) = some 0xA8 ∧
    valOf (.descr 1) (bound .unknown 15 frameA) = some 0xD7 ∧ valOf (.read 8 8) (bound .unknown 15 frameA) = some 0 := by
  decide
theorem test_xorm_wraps : -- V17, V19, V23, V24 [MASK_candidate]
    valOf (.xorm 0 0) (bound .unknown 0 []) = some 0xB1 ∧ valOf (.xorm 59 0) (bound .unknown 0 []) = some 0xC1 ∧
    valOf (.xorm 124 0x5A) (bound .unknown 0 []) = some 0xCC ∧ valOf (.xorm 4294967295 0) (bound .unknown 0 []) = some 0x51 := by
  decide
theorem test_xorm_involution : -- V20, V21 [MASK_candidate]
    valOf (.xorm 60 0xA5) (bound .unknown 0 []) = some 0x33 ∧ valOf (.xorm 60 0x33) (bound .unknown 0 []) = some 0xA5 := by
  decide
theorem test_length : valOf .length (bound .unknown 808 frameP1) = some 808 ∧ valOf .length State.reset = some 0 := by
  decide -- V67, V70a
theorem test_isvalid : valOf .isvalid (bound .unknown 0 []) = some 1 := by decide -- V71
theorem test_recvat (v : Timestamp) : (responseOf .recvat { bound .unknown 24 frameA with ts := v }).map Response.ts = some v :=
  rfl -- V72
theorem test_type_codes : -- R38
    valOf .type (bound .unknown 0 []) = some 0 ∧ valOf .type (bound .meteomodemUnknown 0 []) = some 1 ∧
    valOf .type (bound .meteomodemM10 0 []) = some 2 ∧ valOf .type (bound .meteomodemM2K2 0 []) = some 3 ∧
    valOf .type (bound .vaisalaRS41SG 0 []) = some 4 := by decide
theorem test_typestr_named : strOf .typestr (bound .meteomodemM10 24 frameA) = some (Config.typeName .meteomodemM10) := rfl -- V72a
theorem test_typestr_preview : -- V72b, the dump it shows a part of [MASK_candidate]
    (bound .meteomodemUnknown 24 [0x12, 0x34, 0x56]).sym = ascii ['A', '3', '7', 'D', '5', 'E'] := by decide
theorem test_alt_meteomodem : -- V34, V34b, V75, V75a
    valOf .alt (bound .meteomodemM10 808 frameP1) = some 1000000 ∧
    valOf .alt (bound .meteomodemM2K2 808 (zeros 22 ++ [0x00, 0x00, 0xBB, 0x7F])) = some (-1) ∧
    valOf .alt (bound .meteomodemM10 207 (ones 26)) = some (-48000) ∧
    valOf .alt (bound .meteomodemM10 208 (ones 26)) = some 4294919295 := by decide +kernel
theorem test_alt_vaisala : -- V39c, V39e [MASK_candidate]
    valOf .alt (bound .vaisalaRS41SG 2560 frameP2) = some 1000000 ∧
    valOf .alt (bound .vaisalaRS41SG 2560 []) = some 3706167665 := by decide +kernel
theorem test_lat : -- V35, V73, V73a, V39d
    valOf .lat (bound .meteomodemM10 808 frameP1) = some 536870912 ∧ valOf .lat (bound .meteomodemM10 143 (ones 18)) = some 0 ∧
    valOf .lat (bound .meteomodemM10 144 (ones 18)) = some 4294967295 ∧
    valOf .lat (bound .vaisalaRS41SG 144 (ones 18)) = some 0 := by decide +kernel
theorem test_lon : -- V36, V74, V74a, V39d
    valOf .lon (bound .meteomodemM10 808 frameP1) = some 16777216 ∧ valOf .lon (bound .meteomodemM10 175 (ones 22)) = some 0 ∧
    valOf .lon (bound .meteomodemM10 176 (ones 22)) = some 4294967295 ∧
    valOf .lon (bound .vaisalaRS41SG 176 (ones 22)) = some 0 := by decide +kernel
theorem test_vbat_meteomodem : -- V37, V38, V76, V77
    valOf .vbat (bound .meteomodemM10 808 frameP1) = some 900000 ∧ valOf .vbat (bound .meteomodemM2K2 808 frameP1) = some 8712 ∧
    valOf .vbat (bound .meteomodemM10 567 (ones 71)) = some 255000 ∧
    valOf .vbat (bound .meteomodemM2K2 559 (ones 71)) = some 0 := by decide
theorem test_vbat_vaisala : -- V39a, V78 [MASK_candidate]
    valOf .vbat (bound .vaisalaRS41SG 2560 frameP2) = some 2700 ∧ valOf .vbat (bound .vaisalaRS41SG 0 []) = some 7300 := by
  decide +kernel
theorem test_serial_meteomodem : -- V40, V42, and V40 cut to 783 bits
    strOf .serial (bound .meteomodemM10 808 frameP1) = some (ascii ['3', '1', '2', ' ', 'A', ' ', '5', '1', '2', '3', '4']) ∧
    strOf .serial (bound .meteomodemM2K2 808 (zeros 93 ++ [0x0F, 0x00, 0xFF, 0xFF, 0xFF])) =
      some (ascii ['F', '1', '5', ' ', 'F', ' ', '7', '8', '1', '9', '1']) ∧
    strOf .serial (bound .meteomodemM10 783 frameP1) = some (ascii ['3', '1', '2', ' ', 'A', ' ', '5', '0', '0', '0', '0']) := by
  decide
theorem test_serial_vaisala : -- V45, V50b [MASK_candidate]
    strOf .serial (bound .vaisalaRS41SG 2560 frameP2) = some (ascii ['S', '1', '2', '3', '4', '5', '6', '7']) ∧
    strOf .serial (bound .vaisalaRS41SG 512 frameP2) = some [0x3F] := by decide +kernel
theorem test_crcok_short : -- V64, V65, V64b
    valOf .crcok (bound .meteomodemM10 0 []) = some 1 ∧ valOf .crcok (bound .meteomodemM10 24 frameA) = some 0 ∧
    valOf .crcok (bound .meteomodemM10 100 []) = some 1 := by decide +kernel
theorem test_crcok_P1 : -- V62, V63, V62b
    valOf .crcok (bound .meteomodemM10 808 frameP1) = some 1 ∧ valOf .crcok (bound .meteomodemM2K2 808 frameP1) = some 0 := by
  decide +kernel
theorem test_crcStep : -- V52, V53, V55a, V57, V58, V58a, V58b, V58c, V58d, V58f
    crcStep 0x0000 true = 0x00A0 ∧ crcStep 0x00A0 false = 0xA0A1 ∧ crcStep 0xFFFF true = 0xFF9F ∧
    crcStep 0x1234 false = 0x3499 ∧ crcStep 0x0080 false = 0x8001 ∧ crcStep 0x4000 false = 0x00A0 ∧
    crcStep 0x0001 false = 0x0141 ∧ crcStep 0x003F false = 0x3FFF ∧ crcStep 0x0100 false = 0x0002 ∧
    crcStep 0xFF00 false = 0x00C1 := by decide
theorem test_cs : -- V61, V61a, V61b
    (bound .unknown 24 frameA).cs 16 = 0x5657 ∧ (bound .unknown 24 frameA).cs 24 = 0x43B9 ∧
    (bound .unknown 16 [0x12, 0x34]).cs 16 = 0x9030 := by decide +kernel
theorem test_symfmt : -- V69, V69a, V70 [MASK_candidate]
    strOf .symfmt (bound .unknown 24 frameA) = some (ascii ['D', '5', 'D', '6', 'A', 'D']) ∧
    strOf .symfmt (bound .unknown 20 frameA) = some (ascii ['D', '5', 'D', '6']) ∧
    strOf .symfmt (bound .unknown 0 []) = some [] := by decide
theorem test_reserved : (match step { State.reset with pending := [⟨0x1FFFFFFFFFFF, default⟩] } with
    | .next t => (t.resp.map fun r => (r.val, r.str, r.err)) | .fault _ => none | .refused _ => none) = some (0, [], []) := by
  decide -- V72d
theorem test_assembly : -- R43
    (∀ v, assembly (.construct 1 v) =
      ascii ['C', 'O', 'N', 'S', 'T', 'R', 'U', 'C', 'T', ' ', 'M', 'U', 'n', 'k', ',', ' '] ++ Config.timestampText v) ∧
    assembly (.read 0 16) = ascii ['R', 'E', 'A', 'D', ' ', '0', ',', ' ', '1', '6'] ∧
    assembly .alt = ascii ['A', 'L', 'T'] := ⟨fun _ => rfl, by decide, by decide⟩
theorem test_pseudo : valOf (pseudoByte 1) (bound .unknown 24 frameA) = some 0x9F ∧
    valOf pseudoDisc (bound .unknown 24 frameA) = some 0x649F := by decide -- R44

/-! ### Witnesses: each statement's hypotheses, met together -/

theorem witness_DecodeEncodeRoundTrip : (Instr.read (2 ^ 32 - 1) 255).wellFormed = true ∧ (Instr.descr (2 ^ 32 - 1)).wellFormed = true ∧
    (Instr.xorm (2 ^ 32 - 1) 255).wellFormed = true := by decide
theorem witness_OperationCodeSelects : (fieldOp 0x0FFFFFFFFFFF#45).toNat < 16 ∧ 16 ≤ (fieldOp 0x100000000000#45).toNat := by
  decide
theorem witness_IgnoredFieldsDoNotMatter : ∃ r r' : Request, fieldOp r'.word = fieldOp r.word ∧ r ≠ r' ∧
    ((fieldOp r.word).toNat = 0 → (fieldA r'.word).toNat % 8 = (fieldA r.word).toNat % 8 ∧ r'.tsIn = r.tsIn) ∧
    (((fieldOp r.word).toNat = 1 ∨ (fieldOp r.word).toNat = 3) → fieldA r'.word = fieldA r.word ∧ fieldB r'.word = fieldB r.word) ∧
    ((fieldOp r.word).toNat = 2 → fieldA r'.word = fieldA r.word) :=
  ⟨⟨0x00FFFFFFF9FF, default⟩, ⟨0x000000000100, default⟩, by decide, fun h => absurd (congrArg Request.word h) (by decide),
    fun _ => ⟨by decide, rfl⟩, by decide, by decide⟩
/-- An instance with two requests presented. -/
def busy (i j : Instr) : State := { bound .meteomodemM10 24 frameA with pending := [encode i, encode j] }
theorem witness_StepRunsPresentedRequest : (busy .alt .lat).pending = encode .alt :: [encode .lat] ∧ decode (encode .alt) = .ok .alt :=
  ⟨rfl, decode_alt (by decide)⟩
theorem witness_ReservedCodeAnswersDefault : ∃ (s : State) (r : Request) (rest : List Request),
    s.pending = r :: rest ∧ 16 ≤ (fieldOp r.word).toNat :=
  ⟨{ State.reset with pending := [⟨0x100000000000, default⟩] }, ⟨0x100000000000, default⟩, [], rfl, by decide⟩
theorem witness_NoRequestWaits : State.reset.pending = [] := by decide
theorem witness_BitReadIsWeightedSum : (bound .unknown 24 frameA).N < 23 + 2 ∧ 0 + 24 ≤ (bound .unknown 24 frameA).N ∧
    State.reset.N = 0 := by decide
theorem witness_BitReadConcatenates : 8 + 8 + 8 ≤ (bound .unknown 24 frameA).N ∧
    (16 + 8 ≤ (bound .unknown 24 frameA).N ∧ (bound .unknown 24 frameA).N < 16 + 8 + 1) ∧ 8 * 0 + 32 ≤ (bound .unknown 32 frameA).N := by
  decide
theorem witness_ReadAnswers : (0 < 1 ∨ 0 > 32) ∧ (33 < 1 ∨ 33 > 32) ∧ 24 + 1 > (bound .unknown 24 frameA).N ∧
    23 + 1 ≤ (bound .unknown 24 frameA).N := by decide
theorem witness_DescrAnswers : 8 * 2 + 8 ≤ (bound .unknown 24 frameA).N ∧ (bound .unknown 24 frameA).N ≤ 8 * 3 := by decide
theorem witness_MaskHasPeriod64 : 1 % 64 = 65 % 64 := by decide
theorem witness_ConstructLatchesTypeAndTimestamp : (bound .unknown 16 [0x64, 0x9F]).BR 0 16 = 0x649F ∧
    (bound .unknown 16 [0x64, 0x8F]).BR 0 16 = 0x648F ∧
    ((bound .unknown 16 [0x64, 0x9E]).BR 0 16 ≠ 0x649F ∧ (bound .unknown 16 [0x64, 0x9E]).BR 0 16 ≠ 0x648F) ∧
    (bound .unknown 15 [0x64, 0x9F]).N < 16 := by decide
theorem witness_UnresolvedOnlyWithoutDiscriminator :
    ∃ t, exec (.construct 1 default) (bound .unknown 16 [0x64, 0x9E]) = .next t ∧ t.sondeType = .meteomodemUnknown :=
  ⟨_, rfl, by decide⟩
theorem witness_SecondConstructLeavesNoResidue (v v' : Timestamp) : (busy (.construct 1 v) (.construct 4 v')).pending =
    [encode (.construct 1 v)] ++ [encode (.construct 4 v')] := rfl
theorem witness_types : (bound .unknown 0 []).sondeType = .unknown ∧ (bound .meteomodemUnknown 0 []).sondeType = .meteomodemUnknown ∧
    (bound .meteomodemM10 0 []).sondeType = .meteomodemM10 ∧ (bound .meteomodemM2K2 0 []).sondeType = .meteomodemM2K2 ∧
    (bound .vaisalaRS41SG 0 []).sondeType = .vaisalaRS41SG := by decide -- TypeAnswers, UnsupportedTypeDefaults, the field statements
theorem witness_TypestrAnswers : (bound .unknown 7 [0xFF]).sondeType = .unknown ∧ (bound .unknown 7 [0xFF]).N < 8 := by decide
theorem witness_OnlyConstructWritesRegisters : isConstruct .symfmt = false := by decide
theorem witness_AltAnswers : (bound .meteomodemM10 207 []).sondeType = .meteomodemM10 ∧ (bound .meteomodemM10 207 []).N < 208 := by
  decide
theorem witness_LatAnswers : (bound .meteomodemM2K2 143 []).sondeType = .meteomodemM2K2 ∧ (bound .meteomodemM2K2 143 []).N < 144 := by
  decide
theorem witness_LonAnswers : (bound .meteomodemM2K2 175 []).sondeType = .meteomodemM2K2 ∧ (bound .meteomodemM2K2 175 []).N < 176 := by
  decide
theorem witness_VbatAnswers : (bound .meteomodemM10 560 []).sondeType = .meteomodemM10 ∧ 560 ≤ (bound .meteomodemM10 560 []).N ∧
    (bound .meteomodemM10 567 []).N < 568 := by decide
theorem witness_DecimalTextSpellsItsNumber : 1 ≤ 4 ∧ 8191 < 10 ^ 4 := by decide
theorem witness_VaisalaSerialIsAllOrNothing :
    (∀ j < 8, 32 ≤ ((bound .vaisalaRS41SG 2560 frameP2).D (57 + j)).toNat ∧ ((bound .vaisalaRS41SG 2560 frameP2).D (57 + j)).toNat ≤ 126) ∧
    126 < ((bound .vaisalaRS41SG 512 frameP2).D (57 + 7)).toNat := by decide +kernel
theorem witness_MeteomodemFieldsIgnoreTheMask : ∃ s s' : State, s.sondeType = .meteomodemM10 ∧ s'.sondeType = s.sondeType ∧
    s'.frameLen = s.frameLen ∧ s'.mask ≠ s.mask ∧ ∀ j < s.N, s'.F j = s.F j :=
  ⟨bound .meteomodemM10 24 frameA, { bound .meteomodemM10 24 frameA with mask := Vector.replicate 64 0 }, by decide⟩
theorem witness_CrcokAnswers :
    (((bound .meteomodemM10 24 []).cs 24).toNat = (bound .meteomodemM10 24 []).BR 792 8 * 256 + (bound .meteomodemM10 24 []).BR 800 8) ∧
    (((bound .meteomodemM10 24 frameA).cs 24).toNat ≠ (bound .meteomodemM10 24 frameA).BR 792 8 * 256 + (bound .meteomodemM10 24 frameA).BR 800 8) ∧
    (800 ≤ (bound .meteomodemM10 807 []).N ∧ (bound .meteomodemM10 807 []).N < 808) ∧ (bound .meteomodemM10 799 []).N < 800 := by
  decide +kernel
theorem witness_SingleBitFlipIsDetected : ∃ (s s' : State) (i : Nat), s.sondeType = .meteomodemM10 ∧ s'.sondeType = .meteomodemM10 ∧
    s'.frameLen = s.frameLen ∧ i < s.N ∧ (i < 792 ∨ 808 ≤ i) ∧ (∀ j < s.N, s'.F j = if j = i then !s.F j else s.F j) ∧
    Answers .crcok s 1 [] [] := by
  refine ⟨bound .meteomodemM10 16 [], bound .meteomodemM10 16 [0x10], 3, rfl, rfl, rfl, by decide, by decide, by decide, answers_of_respond ?_⟩
  rw [exec, execCrcok, State.respondVal_eq, show (bound .meteomodemM10 16 []).crcVerdict = 1 by decide +kernel]
theorem witness_ZeroFrameVerifies : (bound .meteomodemM10 100 []).sondeType = .meteomodemM10 ∧
    ∀ j < (bound .meteomodemM10 100 []).N, (bound .meteomodemM10 100 []).F j = false := by decide +kernel
theorem witness_RecvatReturnsLastConstruct : ∃ (s : State) (hint : BitVec 3) (v : Timestamp) (between : List Request),
    (∀ r ∈ between, fieldOp r.word ≠ 0) ∧ s.pending = encode (.construct hint v) :: (between ++ [encode .recvat]) :=
  ⟨{ State.reset with pending := [encode (.construct 1 default), encode .alt, ⟨0x1F0000000000, default⟩, encode .recvat] }, 1,
    default, [encode .alt, ⟨0x1F0000000000, default⟩], by decide, rfl⟩
theorem witness_DumpLosesNothing : 2 < (bound .unknown 24 frameA).N / 8 := by decide
theorem witness_BeforeConstruct : (State.reset.bindFrame 24 frameA).frameLen = 24 := by decide
theorem witness_NoStepChangesFrameOrMask : ∃ t, step (busy .crcok .alt) = .next t := ⟨_, rfl⟩
theorem witness_AccessorsDoNotInterfere : isConstruct .alt = false ∧ isConstruct .recvat = false ∧
    ∃ t, exec .alt (bound .meteomodemM10 24 frameA) = .next t := ⟨rfl, rfl, _, rfl⟩
theorem witness_ResponseIsFunctionOfInputs : ∃ s s' : State, SameInputs s s' ∧ s.mem ≠ [] ∧ s.pending ≠ s'.pending :=
  ⟨bound .meteomodemM10 24 frameA, busy .alt .lat, ⟨rfl, rfl, rfl, rfl, fun _ _ => rfl⟩, by decide, by decide⟩
theorem witness_OnlyRecvatReadsTimestamp (v : Timestamp) : ∃ s s' : State, Instr.alt ≠ .recvat ∧ s'.sondeType = s.sondeType ∧
    s'.mask = s.mask ∧ s'.frameLen = s.frameLen ∧ (∀ j < s.N, s'.F j = s.F j) ∧ s.mem ≠ [] ∧ s'.ts = v :=
  ⟨bound .meteomodemM10 24 frameA, { bound .meteomodemM10 24 frameA with ts := v }, by simp, rfl, rfl, rfl, fun _ _ => rfl,
    by decide, rfl⟩
theorem witness_PrimitivesIgnoreTypeAndTimestamp (v : Timestamp) : ∃ s s' : State, s'.mask = s.mask ∧ s'.frameLen = s.frameLen ∧
    (∀ j < s.N, s'.F j = s.F j) ∧ s.mem ≠ [] ∧ s'.sondeType ≠ s.sondeType ∧ s'.ts = v :=
  ⟨bound .meteomodemM10 24 frameA, { bound .unknown 24 frameA with ts := v }, rfl, rfl, fun _ _ => rfl, by decide,
    show SondeType.unknown ≠ .meteomodemM10 by decide, rfl⟩
theorem witness_ResponseIsFixedBetweenConstructs : ∃ (s : State) (q : Request) (between : List Request), fieldOp q.word ≠ 0 ∧
    (∀ r ∈ between, fieldOp r.word ≠ 0) ∧ s.pending = between ++ [q] ∧ between ≠ [] :=
  ⟨busy .crcok .alt, encode .alt, [encode .crcok], by decide, by decide, rfl, by simp⟩
theorem witness_InSpanAnswerIsFixedBySpan : ∃ (i : Instr) (s s' : State), isConstruct i = false ∧ i ∉ readsWholeFrame ∧ InSpan i s ∧
    span i s ≤ s'.N ∧ AgreeBelow (span i s) s s' := by
  refine ⟨.lat, bound .meteomodemM10 144 (ones 18), bound .meteomodemM10 150 (ones 19), rfl, by decide, ?_, by decide, rfl, rfl, rfl, ?_⟩
  · unfold InSpan; decide +kernel
  · decide +kernel
theorem witness_ValuesFitThePort : ∃ t r, exec .alt (bound .meteomodemM10 24 frameA) = .next t ∧ t.resp = some r := ⟨_, _, rfl, rfl⟩
theorem witness_StepKeepsInvariant : ∃ s t : State, Inv s ∧ s.mem ≠ [] ∧ step s = .next t := by
  refine ⟨busy .alt .lat, _, ⟨by decide, ?_, fun r hr => by cases hr⟩, by decide, rfl⟩
  unfold FrameClipped; decide

end Sys2Proof.Tests
end

/-!
The decimal text of `00_scope.md` R8. `numeral` is first given its two equations (a single digit; a numeral with one more
digit at its end), free of the fuel and the accumulator it is computed with, and from them one induction rule. The facts
about `dec` are those about `numeral` and the zeros put before it.
-/
namespace Sys2Proof.Machine

theorem hexdigit_toNat_of_lt {d : Nat} (h : d < 10) : (hexdigit d).toNat = 0x30 + d := by
  simp only [hexdigit, if_pos h, BitVec.toNat_ofNat]
  omega

theorem numeralOnto_of_lt (fuel : Nat) {v : Nat} (h : v < 10) (acc : Str) :
    numeralOnto (fuel + 1) v acc = hexdigit v :: acc := by
  simp [numeralOnto, hexdigit, h]

theorem numeralOnto_of_ge (fuel : Nat) {v : Nat} (h : 10 ≤ v) (acc : Str) :
    numeralOnto (fuel + 1) v acc = numeralOnto fuel (v / 10) (hexdigit (v % 10) :: acc) := by
  simp [numeralOnto, hexdigit, Nat.not_lt.mpr h, Nat.mod_lt]

/-- The accumulator is only ever put behind the digits, and any fuel above `v` gives the same digits. -/
theorem numeralOnto_eq_append {fuel v : Nat} (h : v < fuel) (acc : Str) : numeralOnto fuel v acc = numeral v ++ acc := by
  induction v using Nat.strong_induction_on generalizing fuel acc with
  | _ v ih =>
    obtain ⟨fuel, rfl⟩ := Nat.exists_eq_add_of_lt (Nat.zero_lt_of_lt h)
    rw [Nat.zero_add] at h ⊢
    rcases Nat.lt_or_ge v 10 with hv | hv
    · simp [numeral, numeralOnto_of_lt, hv]
    · have hdiv : v / 10 < v := by omega
      simp [numeral, numeralOnto_of_ge _ hv, ih _ hdiv (show v / 10 < fuel by omega), ih _ hdiv hdiv]

theorem numeral_of_lt {v : Nat} (h : v < 10) : numeral v = [hexdigit v] := numeralOnto_of_lt v h []

theorem numeral_of_ge {v : Nat} (h : 10 ≤ v) : numeral v = numeral (v / 10) ++ [hexdigit (v % 10)] := by
  have hdiv : v / 10 < v := by omega
  exact (numeralOnto_of_ge v h []).trans (numeralOnto_eq_append hdiv _)

/-- What holds of every one-digit numeral, and is kept when a digit is written behind the numeral of a positive number, holds
of every numeral. -/
theorem numeral_induction {P : Nat → Str → Prop} (single : ∀ d < 10, P d [hexdigit d])
    (snoc : ∀ v d, 0 < v → d < 10 → P v (numeral v) → P (10 * v + d) (numeral v ++ [hexdigit d])) (v : Nat) :
    P v (numeral v) := by
  induction v using Nat.strong_induction_on with
  | _ v ih =>
    rcases Nat.lt_or_ge v 10 with hv | hv
    · exact numeral_of_lt hv ▸ single v hv
    · have h := snoc (v / 10) (v % 10) (by omega) (by omega) (ih _ (by omega))
      rwa [Nat.div_add_mod, ← numeral_of_ge hv] at h

@[simp] theorem decValue_append_singleton (t : Str) (c : Byte) : decValue (t ++ [c]) = 10 * decValue t + (c.toNat - 0x30) := by
  simp [decValue]

theorem decValue_numeral (v : Nat) : decValue (numeral v) = v := by
  induction v using numeral_induction with
  | single d hd => simp [decValue, hexdigit_toNat_of_lt hd]
  | snoc v d _ hd ih => simp [ih, hexdigit_toNat_of_lt hd]

/-- The zeros `dec` pads with do not change the number a text spells. -/
theorem decValue_replicate_zero_append (k : Nat) (t : Str) : decValue (List.replicate k 0x30 ++ t) = decValue t := by
  induction k with
  | zero => rfl
  | succ k ih => simpa [decValue, List.replicate_succ] using ih

theorem decValue_dec (v w : Nat) : decValue (dec v w) = v := by
  rw [dec, decValue_replicate_zero_append, decValue_numeral]

theorem numeral_isDigit (v : Nat) : ∀ c ∈ numeral v, 0x30 ≤ c.toNat ∧ c.toNat ≤ 0x39 := by
  have hdigit : ∀ d < 10, 0x30 ≤ (hexdigit d).toNat ∧ (hexdigit d).toNat ≤ 0x39 := fun d hd => by
    rw [hexdigit_toNat_of_lt hd]; omega
  induction v using numeral_induction with
  | single d hd => simpa using hdigit d hd
  | snoc v d _ hd ih =>
    intro c hc
    rcases List.mem_append.mp hc with hc | hc
    · exact ih c hc
    · exact List.mem_singleton.mp hc ▸ hdigit d hd

theorem dec_isDigit (v w : Nat) : ∀ c ∈ dec v w, 0x30 ≤ c.toNat ∧ c.toNat ≤ 0x39 := by
  intro c hc
  rcases List.mem_append.mp hc with hc | hc
  · simp [List.eq_of_mem_replicate hc]
  · exact numeral_isDigit v c hc

/-- A numeral has no leading zero: it is as short as the size of its number allows. -/
theorem numeral_length_le {v n : Nat} (hn : 1 ≤ n) (h : v < 10 ^ n) : (numeral v).length ≤ n := by
  induction v using numeral_induction generalizing n with
  | single d _ => simpa using hn
  | snoc v d hv _ ih =>
    obtain ⟨n, rfl⟩ := Nat.exists_eq_add_of_le' hn
    rw [Nat.pow_succ] at h
    have hlt : v < 10 ^ n := by omega
    have hpos : 1 ≤ n := Nat.pos_of_ne_zero fun h0 => by rw [h0, Nat.pow_zero] at hlt; omega
    simpa using ih hpos hlt

theorem dec_length (v w : Nat) : (dec v w).length = max w (numeral v).length := by
  simp only [dec, List.length_append, List.length_replicate]
  omega

/-- Settles O28: the padding of `dec` adds zeros before a numeral that spells its number in the fewest digits. -/
theorem decimalTextSpellsItsNumber : Obligations.DecimalTextSpellsItsNumber := fun v w =>
  ⟨decValue_dec v w, dec_isDigit v w, dec_length v w ▸ Nat.le_max_left _ _, fun _ hn hv =>
    dec_length v w ▸ max_le_max_left w (numeral_length_le hn hv)⟩

end Sys2Proof.Machine

/-!
What a response depends on (`10_state.md` R14, R17, R18). One congruence lemma for each value an operation delivers says of
which parts of the state it is a function; RECVAT is the one operation whose response `TS` enters.
-/
namespace Sys2Proof.Machine

/-! ### Values are functions of `TYPE`, `F`, `N` and `MASK` -/

section congr
variable {s s' : State} (hn : s'.frameLen = s.frameLen) (hF : ∀ j < s.N, s'.F j = s.F j)

include hn in
theorem State.N_congr : s'.N = s.N := congrArg BitVec.toNat hn

include hn hF

theorem State.byte_congr (k : Nat) : s'.byte k = s.byte k := State.BR_congr hn hF (8 * k) 8

theorem State.check_congr : s'.check = s.check := by
  rw [State.check, State.check, State.byte_congr hn hF, State.byte_congr hn hF]

theorem State.crcM10_congr : s'.crcM10 = s.crcM10 := by
  rw [State.crcM10, State.crcM10, State.N_congr hn, State.cs_congr s.N hF, State.check_congr hn hF]

theorem State.serialM_congr : s'.serialM = s.serialM := by
  simp only [State.serialM, State.BR_congr hn hF]

theorem State.serialV_congr (hk : s'.mask = s.mask) : s'.serialV = s.serialV := by
  have hb : s'.serialBytes = s.serialBytes := by simp only [State.serialBytes, State.D_congr hn hF hk]
  rw [State.serialV, State.serialV, hb]

section type
variable (ht : s'.sondeType = s.sondeType)
include ht

theorem State.crcVerdict_congr : s'.crcVerdict = s.crcVerdict := by
  simp only [State.crcVerdict, ht, State.crcM10_congr hn hF]

theorem State.latitude_congr : s'.latitude = s.latitude := by
  simp only [State.latitude, ht, State.BR_congr hn hF]

theorem State.longitude_congr : s'.longitude = s.longitude := by
  simp only [State.longitude, ht, State.BR_congr hn hF]

section mask
variable (hk : s'.mask = s.mask)
include hk

theorem State.altitude_congr : s'.altitude = s.altitude := by
  simp only [State.altitude, ht, State.altM, State.altV, State.altZ, State.BR_congr hn hF, State.D_congr hn hF hk]

theorem State.battery_congr : s'.battery = s.battery := by
  simp only [State.battery, ht, State.vbatM10, State.vbatM2K2, State.vbatV, State.byte_congr hn hF, State.D_congr hn hF hk]

theorem State.serialNumber_congr : s'.serialNumber = s.serialNumber := by
  simp only [State.serialNumber, ht, State.serialM_congr hn hF, State.serialV_congr hn hF hk]

theorem State.typeString_congr : s'.typeString = s.typeString := by
  simp only [State.typeString, ht, State.sym_congr hn hF hk]

end mask
end type
end congr

/-! ### Responses are functions of their inputs -/

/-- Two states in which an operation gives one and the same response, whatever else it does to them. -/
theorem sameResponse_of_respond {i : Instr} {s s' a a' : State} {ts : Timestamp} {val : Int} {str err : Str}
    (h : exec i s = .next (a.respond ts val str err)) (h' : exec i s' = .next (a'.respond ts val str err)) :
    SameResponse i s s' :=
  ⟨_, _, _, h, h', rfl, rfl⟩

/-- An operation that answers with the `ts` left free gives the same response where it reads the same and its value and text
are the same. -/
theorem sameResponse_of_reads {i : Instr} {s s' : State} {val val' : Int} {str str' : Str}
    (h : exec i s = .next (s.respond (s.freeTs i) val str [])) (h' : exec i s' = .next (s'.respond (s'.freeTs i) val' str' []))
    (hr : s'.reads i = s.reads i) (hv : val' = val) (hs : str' = str) : SameResponse i s s' :=
  sameResponse_of_respond h (by rw [h', State.freeTs_congr hr, hv, hs])

/-- CONSTRUCT's response names nothing, so it rests on what CONSTRUCT reads. -/
theorem sameResponse_construct {hint : BitVec 3} {tsIn : Timestamp} {s s' : State}
    (hr : s'.reads (.construct hint tsIn) = s.reads (.construct hint tsIn)) : SameResponse (.construct hint tsIn) s s' := by
  have latched (u : State) : exec (.construct hint tsIn) u =
      .next ((u.latch (u.typeFor hint) tsIn).respond (u.freeTs (.construct hint tsIn)) 0 [] []) := rfl
  exact sameResponse_of_respond (latched s) (by rw [latched, State.freeTs_congr hr])

/-- READ delivers `BR` or, at a width outside `1..32`, 0: a function of `BR` alone. -/
theorem exec_read (off w : Nat) (s : State) : exec (.read off w) s =
    .next (s.respond (s.freeTs (.read off w)) (if w < 1 ∨ w > 32 then 0 else (s.BR off w : Int)) [] []) := by
  rw [exec, execRead]
  split
  · rfl
  · rfl

theorem sameResponse_of_ne_recvat {i : Instr} {s s' : State} (hi : i ≠ .recvat) (ht : s'.sondeType = s.sondeType)
    (hk : s'.mask = s.mask) (hn : s'.frameLen = s.frameLen) (hF : ∀ j < s.N, s'.F j = s.F j) : SameResponse i s s' := by
  have hr := State.reads_congr hn hF ht hk i
  cases i with
  | recvat => exact absurd rfl hi
  | construct => exact sameResponse_construct hr
  | read off w => exact sameResponse_of_reads (exec_read off w s) (exec_read off w s') hr (by rw [State.BR_congr hn hF]) rfl
  | descr k => exact sameResponse_of_reads rfl rfl hr (by rw [State.D_congr hn hF hk]) rfl
  | xorm => exact sameResponse_of_reads rfl rfl hr (by rw [State.descramble, State.descramble, hk]) rfl
  | length => exact sameResponse_of_reads rfl rfl hr (by rw [State.N_congr hn]) rfl
  | isvalid => exact sameResponse_of_reads rfl rfl hr rfl rfl
  | type => exact sameResponse_of_reads rfl rfl hr (by rw [ht]) rfl
  | typestr => exact sameResponse_of_reads rfl rfl hr rfl (State.typeString_congr hn hF ht hk)
  | alt => exact sameResponse_of_reads rfl rfl hr (State.altitude_congr hn hF ht hk) rfl
  | lat => exact sameResponse_of_reads rfl rfl hr (State.latitude_congr hn hF ht) rfl
  | lon => exact sameResponse_of_reads rfl rfl hr (State.longitude_congr hn hF ht) rfl
  | vbat => exact sameResponse_of_reads rfl rfl hr (State.battery_congr hn hF ht hk) rfl
  | serial => exact sameResponse_of_reads rfl rfl hr rfl (State.serialNumber_congr hn hF ht hk)
  | crcok => exact sameResponse_of_reads rfl rfl hr (State.crcVerdict_congr hn hF ht) rfl
  | symfmt => exact sameResponse_of_reads rfl rfl hr rfl (State.sym_congr hn hF hk)

/-- RECVAT's response is `TS` and nothing else of the state. -/
theorem sameResponse_recvat {s s' : State} (h : s'.ts = s.ts) : SameResponse .recvat s s' :=
  sameResponse_of_respond (a := s) (a' := s') rfl (by rw [← h]; rfl)

theorem sameResponse_of_sameInputs (i : Instr) {s s' : State} (h : SameInputs s s') : SameResponse i s s' := by
  obtain ⟨hn, ht, hts, hk, hF⟩ := h
  by_cases hi : i = .recvat
  · exact hi ▸ sameResponse_recvat hts
  · exact sameResponse_of_ne_recvat hi ht hk hn hF

/-- An operation that is no CONSTRUCT writes the response and nothing else (`42_format_dispatch.md` R61). -/
theorem exec_onlyResponse {i : Instr} {s t : State} (hi : isConstruct i = false) (h : exec i s = .next t) :
    OnlyResponseDiffers s t := by
  obtain ⟨hint, tsIn, rfl, -⟩ | ⟨-, he⟩ | ⟨-, -, val, str, he⟩ := exec_cases i s
  · exact absurd hi (by simp [isConstruct])
  · cases he.symm.trans h
    exact s.respond_onlyResponse _ _ _ _
  · cases he.symm.trans h
    exact s.respond_onlyResponse _ _ _ _

/-- Settles O56: the free `ts` rests on `State.reads`, which names no timestamp, and neither does any other operation's
value. -/
theorem onlyRecvatReadsTimestamp : Obligations.OnlyRecvatReadsTimestamp :=
  fun _ _ _ hi ht hk hn hF => sameResponse_of_ne_recvat hi ht hk hn hF

/-- Settles O54: with `TS` beside the inputs of O56, RECVAT's response is fixed too. -/
theorem responseIsFunctionOfInputs : Obligations.ResponseIsFunctionOfInputs :=
  fun i _ _ h => sameResponse_of_sameInputs i h

/-- Settles O48: what is no CONSTRUCT changes no input of a response. -/
theorem accessorsDoNotInterfere : Obligations.AccessorsDoNotInterfere :=
  fun _ j _ _ hi _ h => sameResponse_of_sameInputs j (exec_onlyResponse hi h).sameInputs

/-! ### Waiting and reset -/

theorem step_of_pending_nil {s : State} (h : s.pending = []) : step s = .next s := by
  rw [step, h]

/-- Settles O8: by the first branch of `step`. -/
theorem noRequestWaits : Obligations.NoRequestWaits := fun _ h => step_of_pending_nil h

@[simp] theorem State.reset_N : State.reset.N = 0 := rfl

/-- Settles O44: no read of one bit or more ends within a frame of length 0. -/
theorem resetState : Obligations.ResetState :=
  ⟨rfl, rfl, rfl, rfl, rfl, fun off w hw => State.reset.BR_out off w (by rw [State.reset_N]; omega)⟩

theorem FrameClipped.of_mem_nil {s : State} (h : s.mem = []) : FrameClipped s := by
  simp [FrameClipped, h]

theorem ResponseInRange.of_resp_none {s : State} (h : s.resp = none) : ResponseInRange s := by
  simp [ResponseInRange, h]

/-- Settles O53: reset binds no frame and gives no response. -/
theorem resetHasInvariant : Obligations.ResetHasInvariant :=
  ⟨State.reset_mem_wf, .of_mem_nil rfl, .of_resp_none rfl⟩

end Sys2Proof.Machine

/-!
The memory of the block (`20_memory.md`): the frame and the mask ROM are never written (R21), and an in-span operation
looks at the frame's bits below its span only (R28). For R28 one lemma for each read primitive says that it gives the same in
two states that agree below `n` where its bits lie below `n`; the spans of the operations are then compared with the places
their rules read.
-/
namespace Sys2Proof.Machine

/-! ### The frame and the mask are read-only -/

theorem SameFrame.of_eq {s t : State} (hn : t.frameLen = s.frameLen) (hm : t.mem = s.mem) : SameFrame s t :=
  ⟨hn, fun _ => by rw [hm]⟩

/-- Latching and answering are all an operation can do, and neither writes the frame or the mask. -/
theorem exec_keeps_frame_and_mask {i : Instr} {s t : State} (h : exec i s = .next t) :
    SameFrame s t ∧ t.mask = s.mask := by
  obtain ⟨hint, tsIn, -, he⟩ | ⟨-, he⟩ | ⟨-, -, val, str, he⟩ := exec_cases i s
  all_goals
    cases he.symm.trans h
    exact ⟨.of_eq rfl rfl, rfl⟩

/-- Settles O47: a step waits, executes an operation or answers a reserved code, and taking the request off the port leaves
the frame and the mask. -/
theorem noStepChangesFrameOrMask : Obligations.NoStepChangesFrameOrMask := by
  intro s t h
  obtain ⟨-, hs⟩ | ⟨r, rest, i, -, -, hs⟩ | ⟨r, rest, op, -, -, hs⟩ := step_cases s
  · cases hs.symm.trans h
    exact ⟨.of_eq rfl rfl, rfl⟩
  · exact exec_keeps_frame_and_mask (s := s.accept rest) (hs.symm.trans h)
  · cases hs.symm.trans h
    exact ⟨.of_eq rfl rfl, rfl⟩

/-! ### Reads below a span -/

/-- What R28 compares: both frames reach bit `n`, and below it nothing an operation can read differs. -/
structure AgreeInSpan (n : Nat) (s s' : State) : Prop where
  le_N : n ≤ s.N
  le_N' : n ≤ s'.N
  sondeType_eq : s'.sondeType = s.sondeType
  ts_eq : s'.ts = s.ts
  mask_eq : s'.mask = s.mask
  F_eq : ∀ j < n, s'.F j = s.F j

theorem AgreeInSpan.of_agreeBelow {n : Nat} {s s' : State} (hs : n ≤ s.N) (hs' : n ≤ s'.N) (h : AgreeBelow n s s') :
    AgreeInSpan n s s' :=
  have ⟨ht, hts, hk, hF⟩ := h
  ⟨hs, hs', ht, hts, hk, hF⟩

namespace AgreeInSpan

section reads
variable {n : Nat} {s s' : State} (h : AgreeInSpan n s s')
include h

theorem BR_eq {off w : Nat} (hw : off + w ≤ n) : s'.BR off w = s.BR off w := by
  have hs := h.le_N
  have hs' := h.le_N'
  rw [State.BR_in _ _ _ (by omega), State.BR_in _ _ _ (by omega)]
  exact State.gather_congr off w 0 fun j _ => h.F_eq _ (by omega)

theorem byte_eq {k : Nat} (hk : 8 * k + 8 ≤ n) : s'.byte k = s.byte k := h.BR_eq hk

theorem rawByte_eq {k : Nat} (hk : 8 * k + 8 ≤ n) : s'.rawByte k = s.rawByte k := by
  refine congrArg (BitVec.ofNat 8) (List.foldl_ext _ _ _ fun raw j hj => ?_)
  have hj := List.mem_range.mp hj
  rw [h.BR_eq (by omega)]

theorem descramble_eq (i : Nat) (v : Byte) : s'.descramble i v = s.descramble i v := by
  rw [State.descramble, State.descramble, h.mask_eq]

theorem D_eq {k : Nat} (hk : 8 * k + 8 ≤ n) : s'.D k = s.D k := by
  rw [State.D, State.D, h.rawByte_eq hk, h.descramble_eq]

/-- `Z` reads bytes 280 to 283. -/
theorem altZ_eq (hn : 2272 ≤ n) : s'.altZ = s.altZ := by
  refine List.foldl_ext _ _ _ fun z j hj => ?_
  have hj := List.mem_range.mp hj
  rw [h.D_eq (by omega)]

/-- The Meteomodem serial number ends with the 13 bits at bit 771. -/
theorem serialM_eq (hn : 784 ≤ n) : s'.serialM = s.serialM := by
  have field {off w : Nat} (hw : off + w ≤ 784) : s'.BR off w = s.BR off w := h.BR_eq (hw.trans hn)
  rw [State.serialM, State.serialM, field (by decide), field (by decide), field (by decide), field (by decide),
    field (by decide)]

/-- The Vaisala serial number reads bytes 57 to 64. -/
theorem serialV_eq (hn : 520 ≤ n) : s'.serialV = s.serialV := by
  have bytes_eq : s'.serialBytes = s.serialBytes := List.map_congr_left fun j hj => by
    have hj := List.mem_range.mp hj
    exact h.D_eq (by omega)
  rw [State.serialV, State.serialV, bytes_eq]

end reads

/-! ### Each field's span covers the places its rule reads -/

section fields
variable {s s' : State}

theorem altitude_eq (h : AgreeInSpan (span .alt s) s s') : s'.altitude = s.altitude := by
  rw [State.altitude, State.altitude, h.sondeType_eq]
  rw [span] at h
  generalize s.sondeType = type at h ⊢
  cases type with
  | unknown | meteomodemUnknown => rfl
  | meteomodemM10 | meteomodemM2K2 => rw [State.altM, State.altM, h.BR_eq (by decide)]
  | vaisalaRS41SG => rw [State.altV, State.altV, h.altZ_eq (by decide)]

theorem latitude_eq (h : AgreeInSpan (span .lat s) s s') : s'.latitude = s.latitude := by
  rw [State.latitude, State.latitude, h.sondeType_eq]
  rw [span] at h
  generalize s.sondeType = type at h ⊢
  cases type with
  | unknown | meteomodemUnknown | vaisalaRS41SG => rfl
  | meteomodemM10 | meteomodemM2K2 => rw [h.BR_eq (by decide)]

theorem longitude_eq (h : AgreeInSpan (span .lon s) s s') : s'.longitude = s.longitude := by
  rw [State.longitude, State.longitude, h.sondeType_eq]
  rw [span] at h
  generalize s.sondeType = type at h ⊢
  cases type with
  | unknown | meteomodemUnknown | vaisalaRS41SG => rfl
  | meteomodemM10 | meteomodemM2K2 => rw [h.BR_eq (by decide)]

theorem battery_eq (h : AgreeInSpan (span .vbat s) s s') : s'.battery = s.battery := by
  rw [State.battery, State.battery, h.sondeType_eq]
  rw [span] at h
  generalize s.sondeType = type at h ⊢
  cases type with
  | unknown | meteomodemUnknown => rfl
  | meteomodemM10 => rw [State.vbatM10, State.vbatM10, h.byte_eq (by decide), h.byte_eq (by decide)]
  | meteomodemM2K2 => rw [State.vbatM2K2, State.vbatM2K2, h.byte_eq (by decide)]
  | vaisalaRS41SG => rw [State.vbatV, State.vbatV, h.D_eq (by decide)]

theorem serialNumber_eq (h : AgreeInSpan (span .serial s) s s') : s'.serialNumber = s.serialNumber := by
  rw [State.serialNumber, State.serialNumber, h.sondeType_eq]
  rw [span] at h
  generalize s.sondeType = type at h ⊢
  cases type with
  | unknown | meteomodemUnknown => rfl
  | meteomodemM10 | meteomodemM2K2 => exact h.serialM_eq (by decide)
  | vaisalaRS41SG => exact h.serialV_eq (by decide)

/-- A READ of a width outside `1..32` reads no frame bit; its span is then 0. -/
theorem readValue_eq {off w : Nat} (h : AgreeInSpan (span (.read off w) s) s s') :
    (if w < 1 ∨ w > 32 then 0 else (s'.BR off w : Int)) = if w < 1 ∨ w > 32 then 0 else (s.BR off w : Int) := by
  split
  · rfl
  · next hw => rw [h.BR_eq (by rw [span, if_neg hw])]

end fields
end AgreeInSpan

/-! ### Answers of in-span operations -/

/-- An operation other than RECVAT that answers the same value and text in both states gives the same answer, whatever the
unspecified `ts`. -/
theorem sameAnswer_of_respond {i : Instr} {s s' : State} {ts ts' : Timestamp} {val val' : Int} {str str' : Str}
    (hi : i ≠ .recvat) (h : exec i s = .next (s.respond ts val str [])) (h' : exec i s' = .next (s'.respond ts' val' str' []))
    (hv : val' = val) (hs : str' = str) : SameAnswer i s s' :=
  ⟨_, _, _, _, h, h', rfl, rfl, hv.symm, hs.symm, rfl, fun hr => absurd hr hi⟩

theorem SameResponse.sameAnswer {i : Instr} {s s' : State} (h : SameResponse i s s') : SameAnswer i s s' :=
  have ⟨t, t', r, he, he', hr, hr'⟩ := h
  ⟨t, t', r, r, he, he', hr, hr', rfl, rfl, rfl, fun _ => rfl⟩

theorem AgreeInSpan.sameAnswer {i : Instr} {s s' : State} (hc : isConstruct i = false) (hw : i ∉ readsWholeFrame)
    (h : AgreeInSpan (span i s) s s') : SameAnswer i s s' := by
  cases i with
  | construct => exact absurd hc (by simp [isConstruct])
  | length | typestr | crcok | symfmt => exact absurd hw (by simp [readsWholeFrame])
  | recvat => exact (sameResponse_recvat h.ts_eq).sameAnswer
  | read off w => exact sameAnswer_of_respond (by simp) (exec_read off w s) (exec_read off w s') h.readValue_eq rfl
  | descr => exact sameAnswer_of_respond (by simp) rfl rfl (by rw [h.D_eq le_rfl]) rfl
  | xorm => exact sameAnswer_of_respond (by simp) rfl rfl (by rw [h.descramble_eq]) rfl
  | isvalid => exact sameAnswer_of_respond (by simp) rfl rfl rfl rfl
  | type => exact sameAnswer_of_respond (by simp) rfl rfl (by rw [h.sondeType_eq]) rfl
  | alt => exact sameAnswer_of_respond (by simp) rfl rfl h.altitude_eq rfl
  | lat => exact sameAnswer_of_respond (by simp) rfl rfl h.latitude_eq rfl
  | lon => exact sameAnswer_of_respond (by simp) rfl rfl h.longitude_eq rfl
  | vbat => exact sameAnswer_of_respond (by simp) rfl rfl h.battery_eq rfl
  | serial => exact sameAnswer_of_respond (by simp) rfl rfl rfl h.serialNumber_eq

/-- Settles O49: the span reaches past every bit an operation reads, so the two states of R28 give each of its reads the same
result. -/
theorem inSpanAnswerIsFixedBySpan : Obligations.InSpanAnswerIsFixedBySpan :=
  fun _ _ _ hc hw hs hs' h => (AgreeInSpan.of_agreeBelow hs hs' h).sameAnswer hc hw

end Sys2Proof.Machine

/-!
The request word and its decoding (`30_encoding.md` R34 to R41). The three fields of a word are quotients and remainders of
its value, and the row lemmas of the decoder say all that is needed of `decode`: what follows goes through them.
-/
namespace Sys2Proof

/-! ### The word as a number -/

theorem requestWord_toNat (op : BitVec 5) (a : BitVec 32) (b : BitVec 8) :
    (requestWord op a b).toNat = op.toNat * 2 ^ 40 + a.toNat * 2 ^ 8 + b.toNat := by
  rw [requestWord, BitVec.toNat_append, ← Nat.shiftLeft_add_eq_or_of_lt b.isLt, BitVec.toNat_append,
    ← Nat.shiftLeft_add_eq_or_of_lt a.isLt, Nat.shiftLeft_eq, Nat.shiftLeft_eq]
  ring

theorem fieldOp_toNat (w : BitVec 45) : (fieldOp w).toNat = w.toNat / 2 ^ 40 := by
  rw [fieldOp, BitVec.extractLsb'_toNat, Nat.shiftRight_eq_div_pow]
  omega

theorem fieldA_toNat (w : BitVec 45) : (fieldA w).toNat = w.toNat / 2 ^ 8 % 2 ^ 32 := by
  rw [fieldA, BitVec.extractLsb'_toNat, Nat.shiftRight_eq_div_pow]

theorem fieldB_toNat (w : BitVec 45) : (fieldB w).toNat = w.toNat % 2 ^ 8 := by
  rw [fieldB, BitVec.extractLsb'_toNat, Nat.shiftRight_zero]

theorem requestWord_fields (w : BitVec 45) : requestWord (fieldOp w) (fieldA w) (fieldB w) = w := by
  apply BitVec.eq_of_toNat_eq
  rw [requestWord_toNat, fieldOp_toNat, fieldA_toNat, fieldB_toNat]
  omega

/-- Settles O2: the word has the value of its fields, and division by `2^8` and `2^40` takes it apart again. -/
theorem requestWordIsItsFields : Obligations.RequestWordIsItsFields :=
  ⟨fun op a b => ⟨requestWord_toNat op a b, fieldOp_requestWord op a b, fieldA_requestWord op a b, fieldB_requestWord op a b⟩,
    requestWord_fields, fun w => ⟨fieldOp_toNat w, fieldA_toNat w, fieldB_toNat w⟩⟩

/-! ### Decoding what was encoded -/

theorem fieldOp_encode (i : Instr) : fieldOp (encode i).word = opcode i := fieldOp_requestWord _ _ _
theorem fieldA_encode (i : Instr) : fieldA (encode i).word = operandA i := fieldA_requestWord _ _ _
theorem fieldB_encode (i : Instr) : fieldB (encode i).word = operandB i := fieldB_requestWord _ _ _

theorem toNat_fieldOp_encode (i : Instr) : (fieldOp (encode i).word).toNat = (opcode i).toNat :=
  congrArg BitVec.toNat (fieldOp_encode i)

/-- A hint stands in the low three bits of `A`. -/
theorem extractLsb'_fieldA_encode_construct (hint : BitVec 3) (tsIn : Timestamp) :
    (fieldA (encode (.construct hint tsIn)).word).extractLsb' 0 3 = hint := by
  rw [fieldA_encode, operandA, ← BitVec.setWidth_eq_extractLsb' (by decide), BitVec.setWidth_setWidth_of_le hint (by decide),
    BitVec.setWidth_eq]

/-- An address that fits `A` is read back from it. -/
theorem toNat_fieldA_encode {i : Instr} {a : Nat} (hi : operandA i = BitVec.ofNat 32 a) (ha : a < 2 ^ 32) :
    (fieldA (encode i).word).toNat = a := by
  rw [fieldA_encode, hi, BitVec.toNat_ofNat, Nat.mod_eq_of_lt ha]

theorem toNat_fieldB_encode_read (a : Nat) {b : Nat} (hb : b < 2 ^ 8) : (fieldB (encode (.read a b)).word).toNat = b := by
  rw [fieldB_encode, operandB, BitVec.toNat_ofNat, Nat.mod_eq_of_lt hb]

theorem wellFormed_read_iff (a b : Nat) : (Instr.read a b).wellFormed = true ↔ a < 2 ^ 32 ∧ b < 2 ^ 8 := by
  simp [Instr.wellFormed]

theorem wellFormed_descr_iff (a : Nat) : (Instr.descr a).wellFormed = true ↔ a < 2 ^ 32 := by
  simp [Instr.wellFormed]

theorem wellFormed_xorm_iff (a : Nat) (b : Byte) : (Instr.xorm a b).wellFormed = true ↔ a < 2 ^ 32 := by
  simp [Instr.wellFormed]

/-- Settles O3: the fields of an encoding are the operands, and well-formed operands lose nothing in them. -/
theorem decodeEncodeRoundTrip : Obligations.DecodeEncodeRoundTrip := by
  intro i hi
  have hop := toNat_fieldOp_encode i
  cases i with
  | construct hint tsIn => exact decode_construct hop (extractLsb'_fieldA_encode_construct hint tsIn)
  | read a b =>
    obtain ⟨ha, hb⟩ := (wellFormed_read_iff a b).mp hi
    exact decode_read hop (toNat_fieldA_encode rfl ha) (toNat_fieldB_encode_read a hb)
  | descr a => exact decode_descr hop (toNat_fieldA_encode rfl ((wellFormed_descr_iff a).mp hi))
  | xorm a b => exact decode_xorm hop (toNat_fieldA_encode rfl ((wellFormed_xorm_iff a b).mp hi)) (fieldB_encode (.xorm a b))
  | length => exact decode_length hop
  | isvalid => exact decode_isvalid hop
  | recvat => exact decode_recvat hop
  | type => exact decode_type hop
  | typestr => exact decode_typestr hop
  | alt => exact decode_alt hop
  | lat => exact decode_lat hop
  | lon => exact decode_lon hop
  | vbat => exact decode_vbat hop
  | serial => exact decode_serial hop
  | crcok => exact decode_crcok hop
  | symfmt => exact decode_symfmt hop

/-! ### What selects the operation, and what does not -/

/-- The sixteen rows of `30_encoding.md` R40 are all the codes that are not reserved. -/
theorem exists_decode_of_op_lt (r : Request) (h : (fieldOp r.word).toNat < 16) :
    ∃ i, decode r = .ok i ∧ (opcode i).toNat = (fieldOp r.word).toNat ∧ i.wellFormed = true := by
  have hA := (fieldA r.word).isLt
  have hB := (fieldB r.word).isLt
  interval_cases hop : (fieldOp r.word).toNat
  · exact ⟨_, decode_construct hop rfl, rfl, rfl⟩
  · exact ⟨_, decode_read hop rfl rfl, rfl, (wellFormed_read_iff _ _).mpr ⟨hA, hB⟩⟩
  · exact ⟨_, decode_descr hop rfl, rfl, (wellFormed_descr_iff _).mpr hA⟩
  · exact ⟨_, decode_xorm hop rfl rfl, rfl, (wellFormed_xorm_iff _ _).mpr hA⟩
  · exact ⟨_, decode_length hop, rfl, rfl⟩
  · exact ⟨_, decode_isvalid hop, rfl, rfl⟩
  · exact ⟨_, decode_recvat hop, rfl, rfl⟩
  · exact ⟨_, decode_type hop, rfl, rfl⟩
  · exact ⟨_, decode_typestr hop, rfl, rfl⟩
  · exact ⟨_, decode_alt hop, rfl, rfl⟩
  · exact ⟨_, decode_lat hop, rfl, rfl⟩
  · exact ⟨_, decode_lon hop, rfl, rfl⟩
  · exact ⟨_, decode_vbat hop, rfl, rfl⟩
  · exact ⟨_, decode_serial hop, rfl, rfl⟩
  · exact ⟨_, decode_crcok hop, rfl, rfl⟩
  · exact ⟨_, decode_symfmt hop, rfl, rfl⟩

/-- Settles O4: a code below 16 has its row, any other is reserved. -/
theorem operationCodeSelects : Obligations.OperationCodeSelects := fun r =>
  ⟨fun h =>
    have ⟨i, hd, hop, hw⟩ := exists_decode_of_op_lt r h
    ⟨i, hd, BitVec.eq_of_toNat_eq hop, hw⟩,
  decode_reserved r⟩

/-- The hint is `A` modulo 8. -/
theorem extractLsb'_three_eq_of_mod {a a' : BitVec 32} (h : a'.toNat % 8 = a.toNat % 8) :
    a'.extractLsb' 0 3 = a.extractLsb' 0 3 := by
  apply BitVec.eq_of_toNat_eq
  rw [BitVec.extractLsb'_toNat, BitVec.extractLsb'_toNat]
  exact h

/-- From code 4 on, `op` alone fixes what is decoded. -/
theorem decode_eq_of_four_le {r r' : Request} (hop : fieldOp r'.word = fieldOp r.word) (h : 4 ≤ (fieldOp r.word).toNat) :
    decode r' = decode r := by
  rcases Nat.lt_or_ge (fieldOp r.word).toNat 16 with hlt | hge
  · have hop' := congrArg BitVec.toNat hop
    interval_cases hr : (fieldOp r.word).toNat
    · exact (decode_length hop').trans (decode_length hr).symm
    · exact (decode_isvalid hop').trans (decode_isvalid hr).symm
    · exact (decode_recvat hop').trans (decode_recvat hr).symm
    · exact (decode_type hop').trans (decode_type hr).symm
    · exact (decode_typestr hop').trans (decode_typestr hr).symm
    · exact (decode_alt hop').trans (decode_alt hr).symm
    · exact (decode_lat hop').trans (decode_lat hr).symm
    · exact (decode_lon hop').trans (decode_lon hr).symm
    · exact (decode_vbat hop').trans (decode_vbat hr).symm
    · exact (decode_serial hop').trans (decode_serial hr).symm
    · exact (decode_crcok hop').trans (decode_crcok hr).symm
    · exact (decode_symfmt hop').trans (decode_symfmt hr).symm
  · rw [decode_reserved r hge, decode_reserved r' (hop ▸ hge), hop]

/-- Settles O5: the first four rows look at the fields their premises name, the others at `op` only. -/
theorem ignoredFieldsDoNotMatter : Obligations.IgnoredFieldsDoNotMatter := by
  intro r r' hop hconstruct hread hdescr
  rcases Nat.lt_or_ge (fieldOp r.word).toNat 4 with hlt | hge
  · have hop' := congrArg BitVec.toNat hop
    interval_cases hr : (fieldOp r.word).toNat
    · obtain ⟨hmod, hts⟩ := hconstruct rfl
      rw [show decode r = _ from decode_construct hr rfl, ← hts]
      exact decode_construct hop' (extractLsb'_three_eq_of_mod hmod)
    · obtain ⟨hA, hB⟩ := hread (.inl rfl)
      exact (decode_read hop' (hA ▸ rfl) (hB ▸ rfl)).trans (decode_read hr rfl rfl).symm
    · exact (decode_descr hop' (hdescr rfl ▸ rfl)).trans (decode_descr hr rfl).symm
    · obtain ⟨hA, hB⟩ := hread (.inr rfl)
      exact (decode_xorm hop' (hA ▸ rfl) hB).trans (decode_xorm hr rfl rfl).symm
  · exact decode_eq_of_four_le hop hge

/-- Settles O1: each word's fields select its row. -/
theorem specWordsDecode : Obligations.SpecWordsDecode := fun ts =>
  ⟨decode_construct (by decide) (by decide), decode_construct (by decide) (by decide),
    decode_construct (by decide) (by decide), decode_read (by decide) (by decide) (by decide),
    decode_read (by decide) (by decide) (by decide), decode_read (by decide) (by decide) (by decide),
    decode_descr (by decide) (by decide), decode_xorm (by decide) (by decide) (by decide),
    decode_length (by decide), decode_recvat (by decide), decode_alt (by decide), decode_crcok (by decide),
    decode_symfmt (by decide),
    have hop : fieldOp 0x1FFFFFFFFFFF#45 = 0x1F := by decide
    hop ▸ decode_reserved ⟨0x1FFFFFFFFFFF, ts⟩ (hop ▸ by decide)⟩

end Sys2Proof

/-!
What one step answers (`30_encoding.md` R33, R37, R41): the presented request's operation or, for a reserved code, the
default; and in each case a value within the ranges of R37, which the invariant then keeps.
-/
namespace Sys2Proof.Machine

/-! ### The presented request -/

theorem step_of_decode_ok {s : State} {r : Request} {rest : List Request} {i : Instr} (hp : s.pending = r :: rest)
    (hd : decode r = .ok i) : step s = exec i (s.accept rest) := by
  simp only [step, hp, hd]

theorem step_of_reserved {s : State} {r : Request} {rest : List Request} (hp : s.pending = r :: rest)
    (hop : 16 ≤ (fieldOp r.word).toNat) :
    step s = .next ((s.accept rest).respond (reservedTs (fieldOp r.word)) 0 [] []) := by
  simp only [step, hp, decode_reserved r hop, execReserved]

/-- Settles O6: by the branch of `step` that a decoded request takes. -/
theorem stepRunsPresentedRequest : Obligations.StepRunsPresentedRequest := fun _ _ _ _ hp hd => step_of_decode_ok hp hd

/-- Settles O7: the decoder rejects the code, and the answer to that writes the response only. -/
theorem reservedCodeAnswersDefault : Obligations.ReservedCodeAnswersDefault := fun s _ rest hp hop =>
  ⟨_, _, step_of_reserved hp hop, rfl, rfl, rfl, rfl, (s.accept rest).respond_onlyResponse _ _ _ _⟩

/-! ### The ranges of `30_encoding.md` R37 -/

/-- The ranges of R37 in one: the least value is an altitude's, the greatest a 32-bit read's. -/
def InPortRange (v : Int) : Prop := -48000 ≤ v ∧ v < 2 ^ 32

theorem InPortRange.natCast {n : Nat} (h : n < 2 ^ 32) : InPortRange n := by
  unfold InPortRange; omega

/-- Altitudes are 32-bit values less 48000. -/
theorem InPortRange.natCast_sub {n : Nat} (h : n < 2 ^ 32) : InPortRange ((n : Int) - 48000) := by
  unfold InPortRange; omega

theorem InPortRange.zero : InPortRange 0 := .natCast (n := 0) (by decide)

theorem InPortRange.byte (b : Byte) : InPortRange b.toNat := .natCast (b.isLt.trans (by decide))

theorem InPortRange.toInt_ofInt {v : Int} (h : InPortRange v) : (BitVec.ofInt 64 v).toInt = v := by
  obtain ⟨hlo, hhi⟩ := h
  exact BitVec.toInt_ofInt_eq_self (by decide) (by omega) (by omega)

section values
variable (s : State)

theorem State.BR_lt_of_width_le {off w : Nat} (hw : w ≤ 32) : s.BR off w < 2 ^ 32 :=
  (s.BR_lt off w).trans_le (Nat.pow_le_pow_right (by decide) hw)

theorem State.byte_lt (k : Nat) : s.byte k < 256 := s.BR_lt (8 * k) 8

/-- Bytes accumulated big-endian fill as many bytes as there are. -/
theorem foldl_bytes_lt (f : Nat → Byte) (n : Nat) : (List.range n).foldl (fun z j => 256 * z + (f j).toNat) 0 < 256 ^ n := by
  induction n with
  | zero => exact Nat.one_pos
  | succ n ih =>
    rw [List.range_succ, List.foldl_append, List.foldl_cons, List.foldl_nil, Nat.pow_succ]
    have := (f n).isLt
    omega

theorem State.altZ_lt : s.altZ < 2 ^ 32 := foldl_bytes_lt (fun j => s.D (0x118 + j)) 4

theorem State.altitude_inPortRange : InPortRange s.altitude := by
  rw [State.altitude]
  split
  · exact .natCast_sub (s.BR_lt _ 32)
  · exact .natCast_sub (s.BR_lt _ 32)
  · exact .natCast_sub s.altZ_lt
  · exact .zero
  · exact .zero

theorem State.latitude_inPortRange : InPortRange s.latitude := by
  rw [State.latitude]
  split
  · exact .natCast (s.BR_lt _ 32)
  · exact .natCast (s.BR_lt _ 32)
  · exact .zero
  · exact .zero
  · exact .zero

theorem State.longitude_inPortRange : InPortRange s.longitude := by
  rw [State.longitude]
  split
  · exact .natCast (s.BR_lt _ 32)
  · exact .natCast (s.BR_lt _ 32)
  · exact .zero
  · exact .zero
  · exact .zero

theorem State.battery_inPortRange : InPortRange s.battery := by
  have h69 := s.byte_lt 69
  have h70 := s.byte_lt 70
  have hD := (s.D 0x41).isLt
  rw [State.battery]
  split
  · exact .natCast (by omega)
  · exact .natCast (by omega)
  · exact .natCast (by omega)
  · exact .zero
  · exact .zero

theorem verdict_inPortRange (b : Bool) : InPortRange (verdict b) := by
  cases b with
  | false => exact .zero
  | true => exact .natCast (n := 1) (by decide)

theorem State.crcVerdict_inPortRange : InPortRange s.crcVerdict := by
  rw [State.crcVerdict]
  split
  · exact verdict_inPortRange _
  · exact .zero
  · exact .zero
  · exact .zero
  · exact .zero

theorem typeCode_inPortRange (t : SondeType) : InPortRange (typeCode t) := .natCast (by cases t <;> decide)

/-- A READ delivers 0 or a read of at most 32 bits. -/
theorem State.readValue_inPortRange (off w : Nat) :
    InPortRange (if w < 1 ∨ w > 32 then 0 else (s.BR off w : Int)) := by
  split
  · exact .zero
  · exact .natCast (s.BR_lt_of_width_le (by omega))

end values

/-! ### Every response is in range -/

theorem ResponseInRange.respond {s : State} {ts : Timestamp} {val : Int} {str : Str} (h : InPortRange val) :
    ResponseInRange (s.respond ts val str []) := by
  intro r hr
  cases hr
  exact ⟨h.1, h.2, rfl⟩

/-- An operation that answers by `respond`, from whatever state `a` it has reached, with a value in range and no error string. -/
theorem responseInRange_of_respond {i : Instr} {s t a : State} {ts : Timestamp} {val : Int} {str : Str}
    (he : exec i s = .next (a.respond ts val str [])) (hv : InPortRange val) (h : exec i s = .next t) : ResponseInRange t := by
  cases he.symm.trans h
  exact .respond hv

theorem exec_responseInRange {i : Instr} {s t : State} (h : exec i s = .next t) : ResponseInRange t := by
  cases i with
  | construct hint tsIn => exact responseInRange_of_respond (a := s.latch (s.typeFor hint) tsIn) rfl .zero h
  | read off w => exact responseInRange_of_respond (exec_read off w s) (s.readValue_inPortRange off w) h
  | descr k => exact responseInRange_of_respond rfl (.byte (s.D k)) h
  | xorm k v => exact responseInRange_of_respond rfl (.byte (s.descramble k v)) h
  | length => exact responseInRange_of_respond rfl (.natCast s.frameLen.isLt) h
  | isvalid => exact responseInRange_of_respond rfl (.natCast (n := 1) (by decide)) h
  | type => exact responseInRange_of_respond rfl (typeCode_inPortRange s.sondeType) h
  | alt => exact responseInRange_of_respond rfl s.altitude_inPortRange h
  | lat => exact responseInRange_of_respond rfl s.latitude_inPortRange h
  | lon => exact responseInRange_of_respond rfl s.longitude_inPortRange h
  | vbat => exact responseInRange_of_respond rfl s.battery_inPortRange h
  | crcok => exact responseInRange_of_respond rfl s.crcVerdict_inPortRange h
  | recvat | typestr | serial | symfmt => exact responseInRange_of_respond rfl .zero h

/-- Settles O50: R37's ranges lie within a signed 64-bit port. -/
theorem valuesFitThePort : Obligations.ValuesFitThePort := by
  intro i s t r he hr
  obtain ⟨hlo, hhi, -⟩ := exec_responseInRange he r hr
  exact ⟨hlo, hhi, InPortRange.toInt_ofInt ⟨hlo, hhi⟩⟩

/-! ### The invariant -/

/-- The invariant speaks of the frame's cells, its length and the response only. -/
theorem Inv.of_same_cells {s t : State} (h : Inv s) (hm : t.mem = s.mem) (hn : t.frameLen = s.frameLen)
    (hr : ResponseInRange t) : Inv t := by
  obtain ⟨hwf, hclip, -⟩ := h
  refine ⟨hm ▸ hwf, ?_, hr⟩
  rw [FrameClipped, hm, State.N_congr hn]
  exact hclip

/-- No operation writes a cell of the frame or its length, not even to the same contents. -/
theorem exec_keeps_cells {i : Instr} {s t : State} (h : exec i s = .next t) : t.mem = s.mem ∧ t.frameLen = s.frameLen := by
  obtain ⟨hint, tsIn, -, he⟩ | ⟨-, he⟩ | ⟨-, -, val, str, he⟩ := exec_cases i s
  all_goals
    cases he.symm.trans h
    exact ⟨rfl, rfl⟩

/-- Settles O52: waiting keeps the state, and every answer keeps the frame's cells and gives a response in range. -/
theorem stepKeepsInvariant : Obligations.StepKeepsInvariant := by
  intro s t hs h
  obtain ⟨-, he⟩ | ⟨r, rest, i, -, -, he⟩ | ⟨r, rest, op, -, -, he⟩ := step_cases s
  · cases he.symm.trans h
    exact hs
  · have hx : exec i (s.accept rest) = .next t := he.symm.trans h
    obtain ⟨hm, hn⟩ := exec_keeps_cells hx
    exact hs.of_same_cells hm hn (exec_responseInRange hx)
  · cases he.symm.trans h
    exact hs.of_same_cells rfl rfl (.respond .zero)

end Sys2Proof.Machine

/-!
The bit read primitive and READ (`40_bitfield_extractor.md`). What the loop of R45 computes is said once as a weighted sum
and once as a concatenation; `State.BR_in` and `State.BR_out` carry both to reads, and `exec_read` the reads to READ.
-/
namespace Sys2Proof.Machine

/-! ### The loop of R45 -/

/-- The loop goes on where it stopped. -/
theorem State.gather_add (s : State) (off w v u : Nat) : s.gather off (w + v) u = s.gather (off + w) v (s.gather off w u) := by
  induction w generalizing off u with
  | zero => rw [Nat.zero_add, Nat.add_zero, State.gather]
  | succ w ih => rw [Nat.succ_add_eq_add_succ, Nat.add_succ, State.gather, ih, State.gather, Nat.succ_add_eq_add_succ]

/-- The first bit the loop passes weighs most. -/
theorem State.gather_eq_sum (s : State) (off w : Nat) :
    s.gather off w 0 = ∑ j ∈ Finset.range w, (s.F (off + j)).toNat * 2 ^ (w - 1 - j) := by
  induction w generalizing off with
  | zero => rfl
  | succ w ih =>
    have shift (j : Nat) : (s.F (off + (j + 1))).toNat * 2 ^ (w + 1 - 1 - (j + 1)) =
        (s.F (off + 1 + j)).toNat * 2 ^ (w - 1 - j) := by
      rw [show off + (j + 1) = off + 1 + j by omega, show w + 1 - 1 - (j + 1) = w - 1 - j by omega]
    rw [State.gather, State.gather_eq, ih, Finset.sum_range_succ', Finset.sum_congr rfl fun j _ => shift j, Nat.add_comm]
    simp only [Nat.mul_zero, Nat.zero_add, Nat.add_zero, Nat.add_sub_cancel, Nat.sub_zero]

/-! ### Reads -/

/-- A read within the frame is the sum of its bits by their weights (`40_bitfield_extractor.md` R45). -/
theorem State.BR_eq_sum {s : State} {off w : Nat} (h : off + w ≤ s.N) :
    s.BR off w = ∑ j ∈ Finset.range w, (s.F (off + j)).toNat * 2 ^ (w - 1 - j) :=
  (s.BR_in off w h).trans (s.gather_eq_sum off w)

/-- A read within the frame is the concatenation of the reads it is cut into (`40_bitfield_extractor.md` R50). -/
theorem State.BR_add {s : State} {off w v : Nat} (h : off + w + v ≤ s.N) :
    s.BR off (w + v) = s.BR off w * 2 ^ v + s.BR (off + w) v := by
  rw [State.BR_in _ _ _ (by omega), State.BR_in _ _ _ (by omega), State.BR_in _ _ _ h, State.gather_add, State.gather_eq]

/-- A read from a byte boundary takes up one byte more. -/
theorem State.BR_snoc_byte {s : State} {k n : Nat} (h : 8 * k + 8 * n + 8 ≤ s.N) :
    s.BR (8 * k) (8 * n + 8) = s.BR (8 * k) (8 * n) * 2 ^ 8 + s.byte (k + n) := by
  rw [State.BR_add h, State.byte, Nat.mul_add]

/-- Four bytes read as one big-endian number (`20_memory.md` R24). -/
theorem State.BR_32_eq_bytes {s : State} {k : Nat} (h : 8 * k + 32 ≤ s.N) :
    s.BR (8 * k) 32 = s.byte k * 2 ^ 24 + s.byte (k + 1) * 2 ^ 16 + s.byte (k + 2) * 2 ^ 8 + s.byte (k + 3) :=
  calc s.BR (8 * k) 32
    _ = s.BR (8 * k) 24 * 2 ^ 8 + s.byte (k + 3) := State.BR_snoc_byte (n := 3) h
    _ = (s.BR (8 * k) 16 * 2 ^ 8 + s.byte (k + 2)) * 2 ^ 8 + s.byte (k + 3) := by
      rw [State.BR_snoc_byte (n := 2) (by omega)]
    _ = ((s.byte k * 2 ^ 8 + s.byte (k + 1)) * 2 ^ 8 + s.byte (k + 2)) * 2 ^ 8 + s.byte (k + 3) := by
      rw [State.BR_snoc_byte (n := 1) (by omega), show s.BR (8 * k) (8 * 1) = s.byte k from rfl]
    _ = _ := by ring

/-- Settles O9: by the two cases of the bound check; a span of one bit or more does not end within an empty frame. -/
theorem bitReadIsWeightedSum : Obligations.BitReadIsWeightedSum := fun s off w hw _ =>
  ⟨s.BR_out off w, State.BR_eq_sum, fun hN => s.BR_out off w (by omega), s.BR_lt off w⟩

/-- Settles O10: in range by the concatenation of reads; across the end of the frame the wide read is out of range (R51). -/
theorem bitReadConcatenates : Obligations.BitReadConcatenates :=
  ⟨fun s off w v _ _ _ => ⟨State.BR_add, fun _ hend => s.BR_out off (w + v) (by omega)⟩, fun _ _ => State.BR_32_eq_bytes⟩

/-! ### READ -/

/-- READ delivers 0 without a read at a width outside `1..32` (`40_bitfield_extractor.md` R47). -/
theorem answers_read_of_width {off w : Nat} (s : State) (hw : w < 1 ∨ w > 32) : Answers (.read off w) s 0 [] [] :=
  answers_of_respond (by rw [exec_read, if_pos hw])

/-- READ delivers the read at a width within `1..32` (`40_bitfield_extractor.md` R48). -/
theorem answers_read {off w : Nat} (s : State) (hpos : 1 ≤ w) (hle : w ≤ 32) : Answers (.read off w) s (s.BR off w) [] [] :=
  answers_of_respond (by rw [exec_read, if_neg (by omega)])

/-- Settles O11: by the width test and, behind it, the two cases of the bound check. -/
theorem readAnswers : Obligations.ReadAnswers := by
  refine fun s off w => ⟨answers_read_of_width s, fun hpos hle hout => ?_, fun hpos hle hin => ?_⟩
  · simpa only [s.BR_out off w hout, Nat.cast_zero] using answers_read (off := off) s hpos hle
  · simpa only [State.BR_eq_sum hin] using answers_read (off := off) s hpos hle

/-! ### What the primitives depend on -/

/-- Settles O57: of each primitive both what it reads, on which its free `ts` rests, and its value and text are functions of
the items its line 'State read' names. -/
theorem primitivesIgnoreTypeAndTimestamp : Obligations.PrimitivesIgnoreTypeAndTimestamp := by
  intro s s'
  refine ⟨fun hk i v => ?xorm, sameResponse_of_reads rfl rfl rfl rfl rfl, fun hn => ⟨?length, fun hF =>
    ⟨fun off w => ?read, fun hk => ⟨fun k => ?descr, ?symfmt⟩⟩⟩⟩
  case xorm =>
    exact sameResponse_of_reads rfl rfl (by rw [State.reads, State.reads, hk])
      (by rw [State.descramble, State.descramble, hk]) rfl
  case length =>
    exact sameResponse_of_reads rfl rfl (by rw [State.reads, State.reads, hn]) (by rw [State.N_congr hn]) rfl
  case read =>
    exact sameResponse_of_reads (exec_read off w s) (exec_read off w s')
      (by rw [State.reads, State.reads, State.readFrame_congr hn hF]) (by rw [State.BR_congr hn hF]) rfl
  case descr =>
    exact sameResponse_of_reads rfl rfl (State.readDescrambled_congr hn hF hk) (by rw [State.D_congr hn hF hk]) rfl
  case symfmt =>
    exact sameResponse_of_reads rfl rfl (State.readDescrambled_congr hn hF hk) rfl (State.sym_congr hn hF hk)

end Sys2Proof.Machine

/-!
The XOR descrambler, DESCR and XORM (`41_xor_descrambler.md`). The raw byte's loop is said once as a sum of bounded bits by
their weights (R53); all else about descrambling is the algebra of xor and the mask's index, taken modulo 64.
-/
namespace Sys2Proof.Machine

/-! ### The raw byte -/

/-- What is shifted in first weighs most. -/
theorem foldl_bits_eq_sum (f : Nat → Nat) (n : Nat) :
    (List.range n).foldl (fun raw j => 2 * raw + f j) 0 = ∑ j ∈ Finset.range n, f j * 2 ^ (n - 1 - j) := by
  induction n with
  | zero => rfl
  | succ n ih =>
    have shift : ∀ j ∈ Finset.range n, 2 * (f j * 2 ^ (n - 1 - j)) = f j * 2 ^ (n + 1 - 1 - j) := fun j hj => by
      have hj := Finset.mem_range.mp hj
      rw [show n + 1 - 1 - j = n - 1 - j + 1 by omega, pow_succ]
      ring
    rw [List.range_succ, List.foldl_append, List.foldl_cons, List.foldl_nil, ih, Finset.mul_sum, Finset.sum_congr rfl shift,
      Finset.sum_range_succ, show n + 1 - 1 - n = 0 by omega, pow_zero, mul_one]

/-- A one-bit read is the bit, or 0 at or beyond `N` (`41_xor_descrambler.md` R53). -/
theorem State.BR_one (s : State) (i : Nat) : s.BR i 1 = if i < s.N then (s.F i).toNat else 0 := by
  split
  · rw [State.BR_eq_sum (by omega)]
    simp
  · exact s.BR_out i 1 (by omega)

theorem State.rawByte_eq_sum (s : State) (k : Nat) : s.rawByte k =
    BitVec.ofNat 8 (∑ j ∈ Finset.range 8, (if 8 * k + j < s.N then (s.F (8 * k + j)).toNat else 0) * 2 ^ (7 - j)) := by
  rw [State.rawByte, foldl_bits_eq_sum]
  simp only [State.BR_one]

/-- A byte in range takes all its bits from the frame. -/
theorem State.rawByte_toNat {s : State} {k : Nat} (h : 8 * k + 8 ≤ s.N) : (s.rawByte k).toNat = s.byte k := by
  have bits : ∀ j ∈ Finset.range 8, (if 8 * k + j < s.N then (s.F (8 * k + j)).toNat else 0) * 2 ^ (7 - j) =
      (s.F (8 * k + j)).toNat * 2 ^ (8 - 1 - j) := fun j hj => by
    have hj := Finset.mem_range.mp hj
    rw [if_pos (by omega)]
  rw [State.rawByte_eq_sum, Finset.sum_congr rfl bits, ← State.BR_eq_sum h]
  exact Nat.mod_eq_of_lt (s.byte_lt k)

/-- A byte out of range takes none. -/
theorem State.rawByte_eq_zero {s : State} {k : Nat} (h : s.N ≤ 8 * k) : s.rawByte k = 0 := by
  rw [State.rawByte_eq_sum]
  refine congrArg (BitVec.ofNat 8) (Finset.sum_eq_zero fun j _ => ?_)
  rw [if_neg (by omega), Nat.zero_mul]

/-! ### The xor with the mask -/

section xor
variable {s t : State} {i i' : Nat} (v v' : Byte)

theorem State.descramble_congr (hk : t.mask = s.mask) : t.descramble i v = s.descramble i v := by
  rw [State.descramble, State.descramble, hk]

/-- The index counts modulo 64 (`41_xor_descrambler.md` R54). -/
theorem State.descramble_congr_mod (h : i % 64 = i' % 64) : s.descramble i v = s.descramble i' v := by
  simp only [State.descramble, show (i + 4) % 64 = (i' + 4) % 64 by omega]

theorem State.descramble_zero : s.descramble i 0 = s.mask[(i + 4) % 64]'(Nat.mod_lt _ (by decide)) := BitVec.zero_xor

theorem State.descramble_mask : s.descramble i (s.mask[(i + 4) % 64]'(Nat.mod_lt _ (by decide))) = 0 := BitVec.xor_self

theorem State.descramble_descramble : s.descramble i (s.descramble i v) = v := by
  simp only [State.descramble, BitVec.xor_assoc, BitVec.xor_self, BitVec.xor_zero]

/-- What a descrambled byte and its raw byte differ by is the mask byte. -/
theorem State.descramble_xor_self : s.descramble i v ^^^ v = s.mask[(i + 4) % 64]'(Nat.mod_lt _ (by decide)) := by
  rw [State.descramble, BitVec.xor_comm v, BitVec.xor_assoc, BitVec.xor_self, BitVec.xor_zero]

/-- Under one mask byte two bytes differ as they did before. -/
theorem State.descramble_xor_descramble (h : i % 64 = i' % 64) : s.descramble i v ^^^ s.descramble i' v' = v ^^^ v' := by
  rw [← State.descramble_congr_mod v' h, State.descramble, State.descramble]
  generalize s.mask[(i + 4) % 64] = m
  calc v ^^^ m ^^^ (v' ^^^ m)
    _ = v ^^^ v' ^^^ (m ^^^ m) := by ac_rfl
    _ = v ^^^ v' := by rw [BitVec.xor_self, BitVec.xor_zero]

end xor

/-- Settles O15: descrambling is one xor, and indices that agree modulo 64 take the same mask byte. -/
theorem maskHasPeriod64 : Obligations.MaskHasPeriod64 := fun _ _ _ =>
  ⟨State.descramble_xor_self _, State.descramble_xor_descramble _ _⟩

/-! ### DESCR and XORM -/

theorem answers_descr (s : State) (k : Nat) : Answers (.descr k) s (s.D k).toNat [] [] := answers_of_respond rfl

theorem answers_xorm (s : State) (i : Nat) (v : Byte) : Answers (.xorm i v) s (s.descramble i v).toNat [] [] :=
  answers_of_respond rfl

/-- Settles O12: by the raw byte's sum and its two boundary cases. -/
theorem descrAnswers : Obligations.DescrAnswers := by
  refine fun s k => ⟨?_, State.rawByte_toNat, fun hout => ⟨State.rawByte_eq_zero hout, ?_⟩⟩
  · rw [← State.rawByte_eq_sum]
    exact answers_descr s k
  · rw [State.D, State.rawByte_eq_zero hout, State.descramble_zero]

/-- Settles O13: each clause is XORM's answer with the descrambled byte rewritten. -/
theorem xormAnswers : Obligations.XormAnswers := by
  refine fun s i v => ⟨answers_xorm s i v, ?_, ?_, fun n => ?_⟩
  · rw [← State.descramble_zero]
    exact answers_xorm s i 0
  · have h := answers_xorm s i (s.mask[(i + 4) % 64]'(Nat.mod_lt _ (by decide)))
    rw [State.descramble_mask] at h
    exact h
  · have hmod : (i + 64 * n) % 64 = i % 64 := Nat.add_mul_mod_self_left i 64 n
    rw [← State.descramble, ← State.descramble_congr_mod v hmod]
    exact answers_xorm s (i + 64 * n) v

/-- Settles O14: the first XORM delivers the descrambled byte and leaves the mask, so the second one takes it back. -/
theorem descramblingIsAnInvolution : Obligations.DescramblingIsAnInvolution := by
  intro s i v
  refine ⟨State.descramble_descramble v, ?_⟩
  obtain ⟨t, r, he, hr, hval, -, -, -, -, -, hmask, -⟩ := answers_xorm s i v
  have hlt := (s.descramble i v).isLt
  refine ⟨t, r, he, hr, by omega, by omega, ?_⟩
  have hback : t.descramble i (BitVec.ofInt 8 r.val) = v := by
    rw [hval, BitVec.ofInt_natCast, BitVec.ofNat_toNat, BitVec.setWidth_eq, State.descramble_congr _ hmask,
      State.descramble_descramble]
  simpa only [hback] using answers_xorm t i (BitVec.ofInt 8 r.val)

end Sys2Proof.Machine

/-!
The resolver and what stands between two CONSTRUCTs (`42_format_dispatch.md`). Of resolution one equivalence says when the type
stays unresolved (R70). Of runs one induction says that what every step keeps, the whole run keeps; that nothing of earlier
requests is left (R69, R70) is then a matter of single steps.
-/
namespace Sys2Proof.Machine

/-! ### Resolution of the hint -/

/-- Of the eight hint codes only 1 asks for resolution (`30_encoding.md` R39). -/
theorem typeOfHint_eq_meteomodemUnknown_iff : ∀ hint : BitVec 3, typeOfHint hint = .meteomodemUnknown ↔ hint = 1 := by decide

theorem State.resolve_of_m10 {s : State} (h : s.BR 0 16 = 0x649F) : s.resolve = .meteomodemM10 := if_pos h

theorem State.resolve_of_m2k2 {s : State} (h : s.BR 0 16 = 0x648F) : s.resolve = .meteomodemM2K2 := by
  rw [State.resolve, h]
  rfl

theorem State.resolve_eq_meteomodemUnknown_iff (s : State) :
    s.resolve = .meteomodemUnknown ↔ s.BR 0 16 ≠ 0x649F ∧ s.BR 0 16 ≠ 0x648F := by
  by_cases h10 : s.BR 0 16 = 0x649F
  · simp [State.resolve_of_m10 h10, h10]
  · by_cases h2k2 : s.BR 0 16 = 0x648F
    · simp [State.resolve_of_m2k2 h2k2, h2k2]
    · simp [State.resolve, h10, h2k2]

theorem State.typeFor_eq_meteomodemUnknown_iff (s : State) (hint : BitVec 3) :
    s.typeFor hint = .meteomodemUnknown ↔ hint = 1 ∧ s.BR 0 16 ≠ 0x649F ∧ s.BR 0 16 ≠ 0x648F := by
  rw [← s.resolve_eq_meteomodemUnknown_iff, ← typeOfHint_eq_meteomodemUnknown_iff, State.typeFor]
  generalize typeOfHint hint = type
  cases type with
  | meteomodemUnknown => exact (and_iff_right rfl).symm
  | _ => simp

/-! ### CONSTRUCT -/

theorem exec_construct (hint : BitVec 3) (tsIn : Timestamp) (s : State) : exec (.construct hint tsIn) s =
    .next ((s.latch (s.typeFor hint) tsIn).respond (s.freeTs (.construct hint tsIn)) 0 [] []) := rfl

/-- Settles O16: CONSTRUCT latches `typeFor hint`, whose value at each code is R62's, R63's or R64's. -/
theorem constructLatchesTypeAndTimestamp : Obligations.ConstructLatchesTypeAndTimestamp := by
  intro s hint tsIn
  have unresolved := s.typeFor_eq_meteomodemUnknown_iff hint
  refine ⟨_, _, exec_construct hint tsIn s, rfl, .of_eq rfl rfl, rfl, rfl, rfl, rfl, rfl, rfl, ?_⟩
  simp only [State.respond_sondeType, State.latch_sondeType]
  refine ⟨?_, ?m10, ?m2k2, fun h1 h10 h2k2 => unresolved.mpr ⟨h1, h10, h2k2⟩, ?short, ?_, ?_, ?_, ?reserved⟩
  case m10 => exact fun h1 hd => h1 ▸ State.resolve_of_m10 hd
  case m2k2 => exact fun h1 hd => h1 ▸ State.resolve_of_m2k2 hd
  case short =>
    intro h1 hN
    have hd := s.BR_out 0 16 hN
    exact unresolved.mpr ⟨h1, by omega, by omega⟩
  case reserved => rintro (rfl | rfl | rfl) <;> rfl
  all_goals exact fun hh => hh ▸ rfl

/-- Settles O17: by the equivalence that says when the latched type is the unresolved one. -/
theorem unresolvedOnlyWithoutDiscriminator : Obligations.UnresolvedOnlyWithoutDiscriminator := by
  intro s t hint tsIn h ht
  cases (exec_construct hint tsIn s).symm.trans h
  exact (s.typeFor_eq_meteomodemUnknown_iff hint).mp ht

/-! ### TYPE and TYPESTR -/

theorem answers_type {s : State} {type : SondeType} (h : s.sondeType = type) : Answers .type s (typeCode type) [] [] :=
  h ▸ answers_of_respond rfl

/-- Settles O19: TYPE answers `typeCode`, which is R38's table. -/
theorem typeAnswers : Obligations.TypeAnswers := fun _ =>
  ⟨answers_type, answers_type, answers_type, answers_type, answers_type⟩

theorem answers_typestr (s : State) : Answers .typestr s 0 s.typeString [] := answers_of_respond rfl

theorem State.typeString_of_recognized {s : State}
    (h : s.sondeType = .meteomodemM10 ∨ s.sondeType = .meteomodemM2K2 ∨ s.sondeType = .vaisalaRS41SG) :
    s.typeString = Config.typeName s.sondeType := by
  rcases h with h | h | h <;> rw [State.typeString, h]

/-- A frame of no whole byte has an empty dump. -/
theorem State.sym_eq_nil {s : State} (h : s.N < 8) : s.sym = [] := by
  rw [State.sym, Nat.div_eq_of_lt h, List.range_zero, List.flatMap_nil]

/-! ### The unsupported types -/

section unsupported
variable {s : State} (h : s.sondeType = .unknown ∨ s.sondeType = .meteomodemUnknown)
include h

theorem State.typeString_of_unsupported : s.typeString = Config.previewPrefix ++ s.sym.take Config.previewChars := by
  rcases h with h | h <;> rw [State.typeString, h]

theorem State.altitude_of_unsupported : s.altitude = 0 := by
  rcases h with h | h <;> rw [State.altitude, h]

theorem State.latitude_of_unsupported : s.latitude = 0 := by
  rcases h with h | h <;> rw [State.latitude, h]

theorem State.longitude_of_unsupported : s.longitude = 0 := by
  rcases h with h | h <;> rw [State.longitude, h]

theorem State.battery_of_unsupported : s.battery = 0 := by
  rcases h with h | h <;> rw [State.battery, h]

theorem State.serialNumber_of_unsupported : s.serialNumber = questionMark := by
  rcases h with h | h <;> rw [State.serialNumber, h]

theorem State.crcVerdict_of_unsupported : s.crcVerdict = 0 := by
  rcases h with h | h <;> rw [State.crcVerdict, h]

end unsupported

/-- Settles O20: TYPESTR answers `typeString`; a text is cut off at its own length when `PREVIEW_CHARS` goes beyond it. -/
theorem typestrAnswers : Obligations.TypestrAnswers := by
  refine fun s => ⟨fun h => ?_, fun h => ⟨?_, fun hN => ?_⟩⟩
  · rw [← State.typeString_of_recognized h]
    exact answers_typestr s
  · rw [← List.take_eq_take_min, ← State.typeString_of_unsupported h]
    exact answers_typestr s
  · simpa only [State.typeString_of_unsupported h, State.sym_eq_nil hN, List.take_nil, List.append_nil] using answers_typestr s

theorem answers_alt (s : State) : Answers .alt s s.altitude [] [] := answers_of_respond rfl
theorem answers_lat (s : State) : Answers .lat s s.latitude [] [] := answers_of_respond rfl
theorem answers_lon (s : State) : Answers .lon s s.longitude [] [] := answers_of_respond rfl
theorem answers_vbat (s : State) : Answers .vbat s s.battery [] [] := answers_of_respond rfl
theorem answers_serial (s : State) : Answers .serial s 0 s.serialNumber [] := answers_of_respond rfl
theorem answers_crcok (s : State) : Answers .crcok s s.crcVerdict [] [] := answers_of_respond rfl

/-- Settles O21: each of the six answers the field's value, and that is the default at these two types. -/
theorem unsupportedTypeDefaults : Obligations.UnsupportedTypeDefaults := fun s h =>
  ⟨State.altitude_of_unsupported h ▸ answers_alt s, State.latitude_of_unsupported h ▸ answers_lat s,
    State.longitude_of_unsupported h ▸ answers_lon s, State.battery_of_unsupported h ▸ answers_vbat s,
    show Answers .serial s 0 questionMark [] from State.serialNumber_of_unsupported h ▸ answers_serial s,
    State.crcVerdict_of_unsupported h ▸ answers_crcok s⟩

/-! ### Every operation and every step completes -/

theorem exec_completes (i : Instr) (s : State) : ∃ t, exec i s = .next t := by
  obtain ⟨hint, tsIn, -, he⟩ | ⟨-, he⟩ | ⟨-, -, val, str, he⟩ := exec_cases i s
  · exact ⟨_, he⟩
  · exact ⟨_, he⟩
  · exact ⟨_, he⟩

theorem step_completes (s : State) : ∃ t, step s = .next t := by
  obtain ⟨-, hs⟩ | ⟨r, rest, i, -, -, hs⟩ | ⟨r, rest, op, -, -, hs⟩ := step_cases s
  · exact ⟨_, hs⟩
  · exact hs ▸ exec_completes i (s.accept rest)
  · exact ⟨_, hs⟩

/-- Settles O22: every operation completes, and one that is no CONSTRUCT writes the response only. -/
theorem onlyConstructWritesRegisters : Obligations.OnlyConstructWritesRegisters := fun i s hi =>
  have ⟨t, he⟩ := exec_completes i s
  ⟨t, he, exec_onlyResponse hi he⟩

/-! ### Steps that answer a request -/

/-- What a step can do with a request presented. -/
theorem step_cases_of_pending {s : State} {r : Request} {rest : List Request} (hp : s.pending = r :: rest) :
    (∃ i, decode r = .ok i ∧ step s = exec i (s.accept rest)) ∨
    ∃ op, decode r = .error (.reservedOp op) ∧ step s = .next ((s.accept rest).respond (reservedTs op) 0 [] []) := by
  obtain ⟨hnil, -⟩ | ⟨r', rest', i, hp', hd, hs⟩ | ⟨r', rest', op, hp', hd, hs⟩ := step_cases s
  · cases hp.symm.trans hnil
  · cases hp.symm.trans hp'
    exact .inl ⟨i, hd, hs⟩
  · cases hp.symm.trans hp'
    exact .inr ⟨op, hd, hs⟩

/-- The two states hold the same frame, cell for cell, and the same mask: what no operation writes (`10_state.md` R10 to
R12). -/
structure SameRom (s t : State) : Prop where
  frameLen_eq : t.frameLen = s.frameLen
  mem_eq : t.mem = s.mem
  mask_eq : t.mask = s.mask

theorem SameRom.trans {s t u : State} (h : SameRom s t) (h' : SameRom t u) : SameRom s u :=
  ⟨h'.frameLen_eq.trans h.frameLen_eq, h'.mem_eq.trans h.mem_eq, h'.mask_eq.trans h.mask_eq⟩

theorem exec_keeps_rom {i : Instr} {s t : State} (h : exec i s = .next t) : SameRom s t :=
  have ⟨hm, hn⟩ := exec_keeps_cells h
  have ⟨_, hk⟩ := exec_keeps_frame_and_mask h
  ⟨hn, hm, hk⟩

theorem exec_keeps_pending {i : Instr} {s t : State} (h : exec i s = .next t) : t.pending = s.pending := by
  obtain ⟨hint, tsIn, -, he⟩ | ⟨-, he⟩ | ⟨-, -, val, str, he⟩ := exec_cases i s
  all_goals
    cases he.symm.trans h
    rfl

/-- A step takes the presented request off the port and leaves the others (`30_encoding.md` R33). -/
theorem step_keeps_rom_and_rest {s t : State} {r : Request} {rest : List Request} (hp : s.pending = r :: rest)
    (h : step s = .next t) : SameRom s t ∧ t.pending = rest := by
  obtain ⟨i, -, hs⟩ | ⟨op, -, hs⟩ := step_cases_of_pending hp
  · have he : exec i (s.accept rest) = .next t := hs.symm.trans h
    obtain ⟨hn, hm, hk⟩ := exec_keeps_rom he
    exact ⟨⟨hn, hm, hk⟩, exec_keeps_pending he⟩
  · cases hs.symm.trans h
    exact ⟨⟨rfl, rfl, rfl⟩, rfl⟩

/-! ### Runs -/

/-- What every step over a request of a kind keeps, a run over such requests keeps; the run completes and leaves the requests
behind them. -/
theorem exists_run_of_pending {P : State → Prop} {Q : Request → Prop}
    (keep : ∀ s t r rest, s.pending = r :: rest → Q r → step s = .next t → P s → P t)
    {s : State} {first rest : List Request} (hp : s.pending = first ++ rest) (hQ : ∀ r ∈ first, Q r) (hs : P s) :
    ∃ t : State, t.pending = rest ∧ P t ∧
      ∀ k, Host.Core.run Sys2Proof.core (first.length + k) s = Host.Core.run Sys2Proof.core k t := by
  induction first generalizing s with
  | nil => exact ⟨s, hp, hs, fun k => by rw [List.length_nil, Nat.zero_add]⟩
  | cons r first ih =>
    obtain ⟨hr, hfirst⟩ := List.forall_mem_cons.mp hQ
    obtain ⟨t, ht⟩ := step_completes s
    obtain ⟨-, hrest⟩ := step_keeps_rom_and_rest hp ht
    obtain ⟨u, hu, hPu, hrun⟩ := ih hrest hfirst (keep s t r _ hp hr ht hs)
    refine ⟨u, hu, hPu, fun k => ?_⟩
    rw [List.length_cons, Nat.succ_add, run_of_step _ ht, hrun]

theorem run_one_of_step {s t : State} (h : step s = .next t) : Host.Core.run Sys2Proof.core 1 s = .next t :=
  run_of_step 0 h

/-! ### A second CONSTRUCT -/

/-- CONSTRUCT's result is made of its operands, the frame, the mask and the requests that wait: nothing of `TYPE`, `TS` or the
response is left in it (`42_format_dispatch.md` R69). -/
theorem exec_construct_congr (hint : BitVec 3) (tsIn : Timestamp) {s t : State} (h : SameRom s t)
    (hp : t.pending = s.pending) : exec (.construct hint tsIn) t = exec (.construct hint tsIn) s := by
  have hF : ∀ j < s.N, t.F j = s.F j := fun j _ => State.F_congr h.mem_eq j
  have htype := State.typeFor_congr h.frameLen_eq hF hint
  have hreads : t.reads (.construct hint tsIn) = s.reads (.construct hint tsIn) := by
    rw [State.reads, State.reads, State.readFrame_congr h.frameLen_eq hF]
  rw [exec_construct, exec_construct, htype, State.freeTs_congr hreads]
  simp only [State.respond, State.answer, State.latch, h.frameLen_eq, h.mem_eq, h.mask_eq, hp]

/-- A new instance over the frame and the mask of `s`. -/
def State.renewed (s : State) : State :=
  { State.reset with frameLen := s.frameLen, mem := s.mem, mask := s.mask }

/-- Settles O18: the steps before a CONSTRUCT keep the frame and the mask, and its result rests on nothing else they could
change. -/
theorem secondConstructLeavesNoResidue : Obligations.SecondConstructLeavesNoResidue := by
  refine ⟨fun s h h' v v' => ?two, fun s h v earlier hp => ?run⟩
  case two =>
    obtain ⟨t, ht⟩ := exec_completes (.construct h v) s
    obtain ⟨u, hu⟩ := exec_completes (.construct h' v') s
    exact ⟨t, u, ht, (exec_construct_congr h' v' (exec_keeps_rom ht) (exec_keeps_pending ht)).trans hu, hu⟩
  case run =>
    obtain ⟨t, hpend, hrom, hrun⟩ := exists_run_of_pending (P := SameRom s) (Q := fun _ => True)
      (fun _ _ _ _ hp _ hstep hs => hs.trans (step_keeps_rom_and_rest hp hstep).1) hp (fun _ _ => trivial) ⟨rfl, rfl, rfl⟩
    obtain ⟨u, hu⟩ := step_completes t
    obtain ⟨hn, hm, hk⟩ := hrom
    refine ⟨u, (hrun 1).trans (run_one_of_step hu), ?_⟩
    calc exec (.construct h v) s.renewed
      _ = exec (.construct h v) (t.accept []) :=
        (exec_construct_congr h v (s := s.renewed) (t := t.accept []) ⟨hn, hm, hk⟩ rfl).symm
      _ = step t := (step_of_decode_ok hpend (decodeEncodeRoundTrip (.construct h v) rfl)).symm
      _ = .next u := hu

/-! ### Between two CONSTRUCTs -/

theorem opcode_of_decode {r : Request} {i : Instr} (h : decode r = .ok i) : opcode i = fieldOp r.word := by
  rcases Nat.lt_or_ge (fieldOp r.word).toNat 16 with hlt | hge
  · obtain ⟨i', hd, hop, -⟩ := exists_decode_of_op_lt r hlt
    cases hd.symm.trans h
    exact BitVec.eq_of_toNat_eq hop
  · cases (decode_reserved r hge).symm.trans h

theorem isConstruct_of_opcode_ne_zero {i : Instr} (h : opcode i ≠ 0) : isConstruct i = false := by
  cases i with
  | construct => exact absurd rfl h
  | _ => rfl

/-- An operation code other than 0 leaves every input of a response as it is (`42_format_dispatch.md` R70). -/
theorem step_sameInputs {s t : State} {r : Request} {rest : List Request} (hp : s.pending = r :: rest)
    (hop : fieldOp r.word ≠ 0) (h : step s = .next t) : SameInputs s t := by
  have hresp : OnlyResponseDiffers (s.accept rest) t := by
    obtain ⟨i, hd, hs⟩ | ⟨op, -, hs⟩ := step_cases_of_pending hp
    · exact exec_onlyResponse (isConstruct_of_opcode_ne_zero (opcode_of_decode hd ▸ hop)) (hs.symm.trans h)
    · cases hs.symm.trans h
      exact (s.accept rest).respond_onlyResponse _ _ _ _
  exact hresp.sameInputs

theorem SameInputs.refl (s : State) : SameInputs s s := ⟨rfl, rfl, rfl, rfl, fun _ _ => rfl⟩

theorem SameInputs.trans {s t u : State} (h : SameInputs s t) (h' : SameInputs t u) : SameInputs s u := by
  obtain ⟨hn, htype, hts, hk, hF⟩ := h
  obtain ⟨hn', htype', hts', hk', hF'⟩ := h'
  refine ⟨hn'.trans hn, htype'.trans htype, hts'.trans hts, hk'.trans hk, fun j hj => ?_⟩
  rw [hF' j (State.N_congr hn ▸ hj), hF j hj]

/-- Two states that agree in the inputs give a request the same response, a reserved one too. -/
theorem step_sameResponse {s t : State} {r : Request} {rest rest' : List Request} (hs : s.pending = r :: rest)
    (ht : t.pending = r :: rest') (h : SameInputs s t) :
    ∃ a b q, step s = .next a ∧ step t = .next b ∧ a.resp = some q ∧ b.resp = some q := by
  obtain ⟨i, hd, he⟩ | ⟨op, hd, he⟩ := step_cases_of_pending hs
  · rw [he, step_of_decode_ok ht hd]
    exact sameResponse_of_sameInputs i (s := s.accept rest) (s' := t.accept rest') h
  · obtain ⟨i, hd', -⟩ | ⟨op', hd', he'⟩ := step_cases_of_pending ht
    · cases hd.symm.trans hd'
    · cases hd.symm.trans hd'
      exact ⟨_, _, _, he, he', rfl, rfl⟩

/-- Settles O55: the run before `q` keeps the inputs of a response, so `q` meets the inputs it has with no request before
it. -/
theorem responseIsFixedBetweenConstructs : Obligations.ResponseIsFixedBetweenConstructs := by
  intro s q between hq hbetween hp
  obtain ⟨u, hpend, hin, hrun⟩ := exists_run_of_pending (P := SameInputs s) (Q := fun r => fieldOp r.word ≠ 0)
    (fun _ _ _ _ hp hop hstep hs => hs.trans (step_sameInputs hp hop hstep)) hp hbetween (.refl s)
  obtain ⟨t', t, r, ht', ht, hr', hr⟩ := step_sameResponse (s := s.accept [q]) rfl hpend hin
  obtain ⟨-, htype, hts, -⟩ := hin.trans (step_sameInputs hpend hq ht)
  exact ⟨t, t', r, (hrun 1).trans (run_one_of_step ht), ht', hr, hr', htype, hts⟩

end Sys2Proof.Machine

/-!
The field table, ALT to SERIAL by resolved type (`43_field_table.md`). First the value of each field at each type that has one,
then the operations that answer it, then the units of R71 over the rationals, and last what a Meteomodem answer depends on (R91,
R92). That each operation answers its field's value, and what the unsupported types give, is said with the resolver.
-/
namespace Sys2Proof.Machine

section answers
variable {i : Instr} {s : State} {val val' : Int} {str str' err : Str}

theorem Answers.of_val_eq (h : Answers i s val str err) (hv : val = val') : Answers i s val' str err := hv ▸ h

theorem Answers.of_str_eq (h : Answers i s val str err) (hs : str = str') : Answers i s val str' err := hs ▸ h

end answers

/-! ### The fields of M10 and M2K2 -/

section meteomodem
variable {s : State} (h : s.sondeType = .meteomodemM10 ∨ s.sondeType = .meteomodemM2K2)
include h

theorem State.altitude_of_meteomodem : s.altitude = (s.BR 176 32 : Int) - 48000 := by
  rcases h with h | h <;> rw [State.altitude, h, State.altM]

theorem State.latitude_of_meteomodem : s.latitude = s.BR 112 32 := by
  rcases h with h | h <;> rw [State.latitude, h]

theorem State.longitude_of_meteomodem : s.longitude = s.BR 144 32 := by
  rcases h with h | h <;> rw [State.longitude, h]

theorem State.serialNumber_of_meteomodem : s.serialNumber = s.serialM := by
  rcases h with h | h <;> rw [State.serialNumber, h]

/-- Of a frame that ends before the field the 48000 is left (`43_field_table.md` R73). -/
theorem State.altitude_of_meteomodem_short (hN : s.N < 208) : s.altitude = -48000 := by
  rw [State.altitude_of_meteomodem h, s.BR_out 176 32 hN]
  rfl

theorem State.latitude_of_meteomodem_short (hN : s.N < 144) : s.latitude = 0 := by
  rw [State.latitude_of_meteomodem h, s.BR_out 112 32 hN]
  rfl

theorem State.longitude_of_meteomodem_short (hN : s.N < 176) : s.longitude = 0 := by
  rw [State.longitude_of_meteomodem h, s.BR_out 144 32 hN]
  rfl

end meteomodem

section battery
variable {s : State}

theorem State.battery_of_m10 (h : s.sondeType = .meteomodemM10) :
    s.battery = ((s.byte 69 + s.byte 70 * 256) * 1000 : Nat) := by
  rw [State.battery, h, State.vbatM10]

/-- The two bytes are checked against the frame's end one by one, so the second can be 0 alone (`43_field_table.md` R84). -/
theorem State.battery_of_m10_short (h : s.sondeType = .meteomodemM10) (hN : s.N < 568) :
    s.battery = (s.byte 69 * 1000 : Nat) := by
  have second : s.byte 70 = 0 := s.BR_out 560 8 hN
  rw [State.battery_of_m10 h, second, Nat.zero_mul, Nat.add_zero]

theorem State.battery_of_m2k2 (h : s.sondeType = .meteomodemM2K2) : s.battery = (s.byte 69 * 66 : Nat) := by
  rw [State.battery, h, State.vbatM2K2]

end battery

/-! ### The fields of RS41SG -/

section vaisala
variable {s : State} (h : s.sondeType = .vaisalaRS41SG)
include h

theorem State.altitude_of_vaisala : s.altitude = (s.altZ : Int) - 48000 := by rw [State.altitude, h, State.altV]

theorem State.latitude_of_vaisala : s.latitude = 0 := by rw [State.latitude, h]

theorem State.longitude_of_vaisala : s.longitude = 0 := by rw [State.longitude, h]

theorem State.battery_of_vaisala : s.battery = ((s.D 65).toNat * 100 : Nat) := by rw [State.battery, h, State.vbatV]

theorem State.serialNumber_of_vaisala : s.serialNumber = s.serialV := by rw [State.serialNumber, h]

end vaisala

/-- Four bytes accumulated big-endian (`43_field_table.md` R76). -/
theorem State.altZ_eq_bytes (s : State) : s.altZ =
    (s.D 280).toNat * 2 ^ 24 + (s.D 281).toNat * 2 ^ 16 + (s.D 282).toNat * 2 ^ 8 + (s.D 283).toNat :=
  calc s.altZ
    _ = 256 * (256 * (256 * (256 * 0 + (s.D 280).toNat) + (s.D 281).toNat) + (s.D 282).toNat) + (s.D 283).toNat := rfl
    _ = _ := by ring

/-! ### Altitude, latitude, longitude, battery -/

/-- Settles O23: ALT answers the altitude, and a 32-bit read fixes its range. -/
theorem altAnswers : Obligations.AltAnswers := by
  refine fun s => ⟨fun h => ⟨?_, fun hN => ?_, ?lower, ?upper⟩, fun h => ?vaisala, fun h => ?_⟩
  · exact (answers_alt s).of_val_eq (State.altitude_of_meteomodem h)
  · exact (answers_alt s).of_val_eq (State.altitude_of_meteomodem_short h hN)
  case lower | upper =>
    have hlt := s.BR_lt 176 32
    omega
  case vaisala =>
    rw [← State.altZ_eq_bytes]
    exact (answers_alt s).of_val_eq (State.altitude_of_vaisala h)
  · exact (answers_alt s).of_val_eq (State.altitude_of_unsupported h)

/-- Settles O24: LAT answers the latitude. -/
theorem latAnswers : Obligations.LatAnswers := by
  refine fun s => ⟨fun h => ⟨?_, fun hN => ?_⟩, fun h => (answers_lat s).of_val_eq ?_⟩
  · exact (answers_lat s).of_val_eq (State.latitude_of_meteomodem h)
  · exact (answers_lat s).of_val_eq (State.latitude_of_meteomodem_short h hN)
  · exact h.elim State.latitude_of_vaisala State.latitude_of_unsupported

/-- Settles O25: LON answers the longitude. -/
theorem lonAnswers : Obligations.LonAnswers := by
  refine fun s => ⟨fun h => ⟨?_, fun hN => ?_⟩, fun h => (answers_lon s).of_val_eq ?_⟩
  · exact (answers_lon s).of_val_eq (State.longitude_of_meteomodem h)
  · exact (answers_lon s).of_val_eq (State.longitude_of_meteomodem_short h hN)
  · exact h.elim State.longitude_of_vaisala State.longitude_of_unsupported

/-- Settles O26: VBAT answers the battery's value, and the second of M10's two bytes can be 0 alone. -/
theorem vbatAnswers : Obligations.VbatAnswers := by
  refine fun s => ⟨fun h => ⟨?_, fun _ hN => ?_⟩, fun h => ?_, fun h => ?_, fun h => ?_⟩
  · exact (answers_vbat s).of_val_eq (State.battery_of_m10 h)
  · exact (answers_vbat s).of_val_eq (State.battery_of_m10_short h hN)
  · exact (answers_vbat s).of_val_eq (State.battery_of_m2k2 h)
  · exact (answers_vbat s).of_val_eq (State.battery_of_vaisala h)
  · exact (answers_vbat s).of_val_eq (State.battery_of_unsupported h)

/-! ### Serial number -/

/-- A number that fits the width it is written in takes exactly that width. -/
theorem dec_length_of_lt {v w : Nat} (hw : 1 ≤ w) (hv : v < 10 ^ w) : (dec v w).length = w := by
  rw [dec_length, Nat.max_eq_left (numeral_length_le hw hv)]

/-- Each of the three decimal fields fits the characters it has (`43_field_table.md` R88). -/
theorem State.serialM_length (s : State) : s.serialM.length = 11 := by
  have hb := dec_length_of_lt (w := 2) (by decide) ((s.BR_lt (serialBase + 20) 4).trans (by decide))
  have hd := dec_length_of_lt (w := 1) (by decide) ((s.BR_lt (serialBase + 24) 3).trans (by decide))
  have he := dec_length_of_lt (w := 4) (by decide) ((s.BR_lt (serialBase + 27) 13).trans (by decide))
  simp only [State.serialM, List.length_append, List.length_cons, List.length_nil, hb, hd, he]

/-- Settles O27: SERIAL answers `serialM`, whose fields stand at these offsets from byte 93 on. -/
theorem meteomodemSerialAnswers : Obligations.MeteomodemSerialAnswers := fun s h =>
  ⟨s.serialM, (answers_serial s).of_str_eq (State.serialNumber_of_meteomodem h), s.serialM_length, rfl⟩

theorem State.serialBytes_all_printable_iff (s : State) : s.serialBytes.all printable = true ↔
    ∀ j < 8, 32 ≤ (s.D (57 + j)).toNat ∧ (s.D (57 + j)).toNat ≤ 126 := by
  simp only [State.serialBytes, List.all_map, List.all_eq_true, List.mem_range, Function.comp_apply, printable,
    Bool.and_eq_true, decide_eq_true_eq]

theorem State.serialV_of_printable {s : State}
    (h : ∀ j < 8, 32 ≤ (s.D (57 + j)).toNat ∧ (s.D (57 + j)).toNat ≤ 126) : s.serialV = s.serialBytes :=
  if_pos (s.serialBytes_all_printable_iff.mpr h)

/-- One byte that is not printable is enough (`43_field_table.md` R89). -/
theorem State.serialV_of_not_printable {s : State} {j : Nat} (hj : j < 8)
    (h : (s.D (57 + j)).toNat < 32 ∨ 126 < (s.D (57 + j)).toNat) : s.serialV = questionMark := by
  refine if_neg fun hall => ?_
  obtain ⟨hlo, hhi⟩ := s.serialBytes_all_printable_iff.mp hall j hj
  omega

/-- Settles O29: SERIAL answers the serial number, and `serialV` has two cases only. -/
theorem vaisalaSerialIsAllOrNothing : Obligations.VaisalaSerialIsAllOrNothing := by
  refine fun s => ⟨fun h => ⟨fun hall => ?_, fun j hj hout => ?_⟩, fun h => ?_⟩
  · exact (answers_serial s).of_str_eq ((State.serialNumber_of_vaisala h).trans (State.serialV_of_printable hall))
  · exact (answers_serial s).of_str_eq ((State.serialNumber_of_vaisala h).trans (State.serialV_of_not_printable hj hout))
  · exact (answers_serial s).of_str_eq (State.serialNumber_of_unsupported h)

/-! ### Units -/

section units
variable {type : SondeType} (h : type = .meteomodemM10 ∨ type = .meteomodemM2K2)
include h

theorem fieldUnit_alt_of_meteomodem : fieldUnit .alt type = some (1 / 1000, .metre) := by
  rcases h with rfl | rfl <;> rfl

theorem fieldUnit_lat_of_meteomodem : fieldUnit .lat type = some (360 / 2 ^ 32, .degree) := by
  rcases h with rfl | rfl <;> rfl

theorem fieldUnit_lon_of_meteomodem : fieldUnit .lon type = some (360 / 2 ^ 32, .degree) := by
  rcases h with rfl | rfl <;> rfl

end units

/-- A 32-bit number of degree units is less than a full circle. -/
theorem mul_degree_lt_360 {n : Nat} (h : n < 2 ^ 32) : ((n : Int) : ℚ) * (360 / 2 ^ 32) < 360 := by
  have hn : ((n : Int) : ℚ) < 2 ^ 32 := by exact_mod_cast h
  linarith

/-- Settles O30: with the value and the unit of each row of R71's table named, its formula is an identity of rationals. -/
theorem numeratorsDenoteTheFormulas : Obligations.NumeratorsDenoteTheFormulas := by
  refine fun s => ⟨fun h => ⟨?alt, ?lat, ?lon⟩, fun h => ?m10, fun h => ?m2k2, fun h => ⟨?vbatV, ?altV⟩⟩
  case alt =>
    exact ⟨_, _, (answers_alt s).of_val_eq (State.altitude_of_meteomodem h), fieldUnit_alt_of_meteomodem h,
      by push_cast; ring⟩
  case lat =>
    exact ⟨_, _, (answers_lat s).of_val_eq (State.latitude_of_meteomodem h), fieldUnit_lat_of_meteomodem h,
      by push_cast; ring⟩
  case lon =>
    exact ⟨_, _, (answers_lon s).of_val_eq (State.longitude_of_meteomodem h), fieldUnit_lon_of_meteomodem h,
      by push_cast; ring, by positivity, mul_degree_lt_360 (s.BR_lt 144 32)⟩
  case m10 =>
    exact ⟨_, _, (answers_vbat s).of_val_eq (State.battery_of_m10 h), congrArg (fieldUnit .vbat) h, by push_cast; ring⟩
  case m2k2 =>
    exact ⟨_, _, (answers_vbat s).of_val_eq (State.battery_of_m2k2 h), congrArg (fieldUnit .vbat) h, by push_cast; ring⟩
  case vbatV =>
    exact ⟨_, _, (answers_vbat s).of_val_eq (State.battery_of_vaisala h), congrArg (fieldUnit .vbat) h,
      by push_cast; ring⟩
  case altV =>
    exact ⟨_, _, (answers_alt s).of_val_eq (State.altitude_of_vaisala h), congrArg (fieldUnit .alt) h,
      by push_cast; ring⟩

/-! ### What a Meteomodem answer depends on -/

section congr
variable {s s' : State} (h : s.sondeType = .meteomodemM10 ∨ s.sondeType = .meteomodemM2K2)
  (ht : s'.sondeType = s.sondeType)
include h ht

/-- What an operation reads at the other types does not matter. -/
theorem State.readByType_congr_of_meteomodem {u u' m10 m10' m2k2 m2k2' x x' : Config.StateRead} (h10 : m10' = m10)
    (h2k2 : m2k2' = m2k2) : s'.readByType u' m10' m2k2' x' = s.readByType u m10 m2k2 x := by
  rw [State.readByType, State.readByType, ht, h10, h2k2]
  rcases h with h | h <;> rw [h] <;> rfl

variable (hn : s'.frameLen = s.frameLen) (hF : ∀ j < s.N, s'.F j = s.F j)
include hn hF

theorem State.altitude_congr_of_meteomodem : s'.altitude = s.altitude := by
  rw [State.altitude_of_meteomodem h, State.altitude_of_meteomodem (ht ▸ h), State.BR_congr hn hF]

theorem State.battery_congr_of_meteomodem : s'.battery = s.battery := by
  have h69 := State.byte_congr hn hF 69
  rcases h with h | h
  · rw [State.battery_of_m10 h, State.battery_of_m10 (ht.trans h), h69, State.byte_congr hn hF]
  · rw [State.battery_of_m2k2 h, State.battery_of_m2k2 (ht.trans h), h69]

theorem State.serialNumber_congr_of_meteomodem : s'.serialNumber = s.serialNumber := by
  rw [State.serialNumber_of_meteomodem h, State.serialNumber_of_meteomodem (ht ▸ h), State.serialM_congr hn hF]

end congr

/-- Settles O31: at a Meteomodem type no operation of the list reads more than the type and the frame, so its free `ts` as well
as its value and text are functions of these. -/
theorem meteomodemFieldsIgnoreTheMask : Obligations.MeteomodemFieldsIgnoreTheMask := by
  intro s s' i h hi ht hn hF
  have frame := State.readFrame_congr hn hF
  have field (x x' : Config.StateRead) :
      s'.readByType {} s'.readFrame s'.readFrame x' = s.readByType {} s.readFrame s.readFrame x :=
    State.readByType_congr_of_meteomodem h ht frame frame
  simp only [List.mem_cons, List.not_mem_nil, or_false] at hi
  obtain rfl | rfl | rfl | rfl | rfl | rfl := hi
  · exact sameResponse_of_reads rfl rfl (field _ _) (State.altitude_congr_of_meteomodem h ht hn hF) rfl
  · exact sameResponse_of_reads rfl rfl (field _ _) (State.latitude_congr hn hF ht) rfl
  · exact sameResponse_of_reads rfl rfl (field _ _) (State.longitude_congr hn hF ht) rfl
  · exact sameResponse_of_reads rfl rfl (field _ _) (State.battery_congr_of_meteomodem h ht hn hF) rfl
  · exact sameResponse_of_reads rfl rfl (field _ _) rfl (State.serialNumber_congr_of_meteomodem h ht hn hF)
  · exact sameResponse_of_reads rfl rfl (State.readByType_congr_of_meteomodem h ht frame rfl)
      (State.crcVerdict_congr hn hF ht) rfl

end Sys2Proof.Machine

/-!
The checksum validator, CRCOK (`44_checksum_validator.md`). The literal step of R95 is first read bit by bit (R98); all that
follows rests on these bits: the step is linear, and it takes nothing else to a word whose low 15 bits are 0. The accumulator and
a flipped bit come next (R99), and last the operation and its check field.
-/
namespace Sys2Proof.Machine

/-! ### The bits of a step -/

theorem getLsbD_bitOf (c : BitVec 16) (k i : Nat) : (bitOf c k).getLsbD i = (c.getLsbD k && decide (i = 0)) := by
  rcases Nat.eq_zero_or_pos i with rfl | hi
  · simp [bitOf]
  · simp [bitOf, BitVec.getLsbD_one, hi.ne']

section bits
variable (c d : BitVec 16) (b e : Bool)

/-- Below bit 6 the accumulator's low part stands as it is, and the frame bit reaches bit 5 only. -/
theorem getLsbD_crcStep_of_lt_six {i : Nat} (hi : i < 6) : (crcStep c b).getLsbD i =
    (c.getLsbD i ^^ c.getLsbD (7 + i) ^^ c.getLsbD (9 + i) ^^ (decide (i = 5) && b)) := by
  cases b <;> interval_cases i <;> simp [crcStep]

/-- Bits 6 and 7 take R95's two sums, and from the high part one bit each: its byte has none two places above them. -/
theorem getLsbD_crcStep_six : (crcStep c b).getLsbD 6 =
    (c.getLsbD 0 ^^ c.getLsbD 2 ^^ c.getLsbD 4 ^^ c.getLsbD 13) := by
  cases b <;> simp [crcStep, getLsbD_bitOf, -BitVec.getLsbD_eq_getElem]

theorem getLsbD_crcStep_seven : (crcStep c b).getLsbD 7 =
    (c.getLsbD 1 ^^ c.getLsbD 3 ^^ c.getLsbD 5 ^^ c.getLsbD 14 ^^ b) := by
  cases b <;> simp [crcStep, getLsbD_bitOf, -BitVec.getLsbD_eq_getElem]

/-- The low byte moves up unchanged: every other stage fits eight bits. -/
theorem getLsbD_crcStep_eight_add {k : Nat} (hk : k < 8) : (crcStep c b).getLsbD (8 + k) = c.getLsbD k := by
  cases b <;> interval_cases k <;> simp [crcStep, getLsbD_bitOf, -BitVec.getLsbD_eq_getElem]

/-- Settles O33: the low six bits have one form, whose last term is there for bit 5 alone. -/
theorem checksumStepBits : Obligations.ChecksumStepBits := by
  refine fun c b => ⟨?_, ?_, ?_, ?_, ?_, ?_, getLsbD_crcStep_six c b, getLsbD_crcStep_seven c b,
    fun _ => getLsbD_crcStep_eight_add c b⟩
  all_goals simp [getLsbD_crcStep_of_lt_six, -BitVec.getLsbD_eq_getElem]

/-! ### Linearity -/

/-- Every bit of a step is an exclusive or of bits of the accumulator and the frame bit. -/
theorem crcStep_xor : crcStep (c ^^^ d) (b ^^ e) = crcStep c b ^^^ crcStep d e := by
  refine BitVec.eq_of_getLsbD_eq fun i hi => ?_
  rw [BitVec.getLsbD_xor]
  rcases Nat.lt_or_ge i 8 with hlow | hhigh
  · obtain hlt | rfl | rfl : i < 6 ∨ i = 6 ∨ i = 7 := by omega
    · simp only [getLsbD_crcStep_of_lt_six _ _ hlt, BitVec.getLsbD_xor, Bool.and_xor_distrib_left, Bool.xor_assoc,
        Bool.xor_left_comm]
    · simp only [getLsbD_crcStep_six, BitVec.getLsbD_xor, Bool.xor_assoc, Bool.xor_left_comm]
    · simp only [getLsbD_crcStep_seven, BitVec.getLsbD_xor, Bool.xor_assoc, Bool.xor_left_comm]
  · obtain ⟨k, rfl⟩ := Nat.exists_eq_add_of_le hhigh
    have hk : k < 8 := by omega
    simp only [getLsbD_crcStep_eight_add _ _ hk, BitVec.getLsbD_xor]

theorem crcStep_xor_left : crcStep (c ^^^ d) b = crcStep c b ^^^ crcShift d := by
  simpa only [Bool.xor_false, crcShift] using crcStep_xor c d b false

theorem crcShift_xor : crcShift (c ^^^ d) = crcShift c ^^^ crcShift d := crcStep_xor_left c d false

theorem crcStep_not : crcStep c (!b) = crcStep c b ^^^ 0x00A0 := by
  have one : crcStep 0#16 true = 0x00A0 := by decide
  simpa only [BitVec.xor_zero, Bool.xor_true, one] using crcStep_xor c 0#16 b true

theorem crcShift_zero : crcShift 0 = 0 := by decide

end bits

/-! ### The kernel -/

theorem setWidth_15_eq_zero_iff (x : BitVec 16) : x.setWidth 15 = 0 ↔ x = 0 ∨ x = 0x8000 := by
  bv_omega

theorem setWidth_15_eq_zero_iff_bits (x : BitVec 16) : x.setWidth 15 = 0 ↔ ∀ i < 15, x.getLsbD i = false := by
  refine ⟨fun h i hi => ?_, fun h => BitVec.eq_of_getLsbD_eq fun i hi => ?_⟩
  · simpa [hi] using congrArg (BitVec.getLsbD · i) h
  · simpa [hi] using h i hi

/-- The result's bits 8 to 14 are the accumulator's low ones; with these 0, the low result bits give the others from bit 14 down
to bit 7. -/
theorem setWidth_15_eq_zero_of_crcShift {x : BitVec 16} (h : (crcShift x).setWidth 15 = 0) : x.setWidth 15 = 0 := by
  rw [setWidth_15_eq_zero_iff_bits] at h ⊢
  have low (k : Nat) (hk : k < 7) : x.getLsbD k = false :=
    (getLsbD_crcStep_eight_add x false (by omega)).symm.trans (h (8 + k) (by omega))
  have h13 : x.getLsbD 13 = false := by
    simpa [low, -BitVec.getLsbD_eq_getElem] using (getLsbD_crcStep_six x false).symm.trans (h 6 (by decide))
  have h14 : x.getLsbD 14 = false := by
    simpa [low, -BitVec.getLsbD_eq_getElem] using (getLsbD_crcStep_seven x false).symm.trans (h 7 (by decide))
  have down (i : Nat) (hi : i < 6) (hx : x.getLsbD (9 + i) = false) : x.getLsbD (7 + i) = false := by
    simpa [hx, low i (by omega)] using (getLsbD_crcStep_of_lt_six x false hi).symm.trans (h i (by omega))
  have h12 := down 5 (by decide) h14
  have h11 := down 4 (by decide) h13
  have h10 := down 3 (by decide) h12
  have h9 := down 2 (by decide) h11
  have h8 := down 1 (by decide) h10
  have h7 := down 0 (by decide) h9
  intro i hi
  rcases Nat.lt_or_ge i 7 with hlow | hhigh
  · exact low i hlow
  · interval_cases i <;> assumption

theorem crcShift_eq_zero_iff (x : BitVec 16) : crcShift x = 0 ↔ x = 0 ∨ x = 0x8000 := by
  refine ⟨fun h => ?_, ?_⟩
  · rw [← setWidth_15_eq_zero_iff]
    exact setWidth_15_eq_zero_of_crcShift (h ▸ rfl)
  · rintro (rfl | rfl) <;> decide

/-- Settles O34: the three parts are cases of the step's linearity and its kernel. -/
theorem checksumStepIsLinear : Obligations.ChecksumStepIsLinear :=
  ⟨crcShift_xor, fun x => crcStep_not x false, crcShift_eq_zero_iff⟩

/-! ### The accumulator -/

theorem setWidth_15_eq_zero_of_iterate_crcShift (k : Nat) {x : BitVec 16} (h : (crcShift^[k] x).setWidth 15 = 0) :
    x.setWidth 15 = 0 := by
  induction k generalizing x with
  | zero => exact h
  | succ k ih => exact setWidth_15_eq_zero_of_crcShift (ih h)

/-- No word but the kernel's two ever comes to 0, so no contribution vanishes. -/
theorem iterate_crcShift_ne_zero (k : Nat) : crcShift^[k] 0x00A0 ≠ 0 := fun h =>
  have low : (0x00A0#16).setWidth 15 = 0 := setWidth_15_eq_zero_of_iterate_crcShift k (congrArg (BitVec.setWidth 15) h)
  absurd low (by decide)

/-- What bit `i` adds to a sum over the first `n` bits: nothing, or the 0x00A0 of a one bit after the steps that follow it. -/
def State.addContribution (s : State) (n : Nat) (acc : BitVec 16) (i : Nat) : BitVec 16 :=
  if s.F i then acc ^^^ crcShift^[n - 1 - i] 0x00A0 else acc

section accumulator
variable (s : State)

theorem State.addContribution_last (n : Nat) (acc : BitVec 16) :
    s.addContribution (n + 1) (crcShift acc) n = crcStep acc (s.F n) := by
  rw [State.addContribution, Nat.add_sub_cancel, Nat.sub_self]
  cases s.F n with
  | false => rfl
  | true => exact (crcStep_not acc false).symm

/-- One more bit shifts each contribution before it. -/
theorem State.addContribution_succ {n i : Nat} (hi : i < n) (acc : BitVec 16) :
    s.addContribution (n + 1) (crcShift acc) i = crcShift (s.addContribution n acc i) := by
  rw [State.addContribution, State.addContribution, apply_ite crcShift, crcShift_xor, ← Function.iterate_succ_apply' crcShift,
    show n + 1 - 1 - i = (n - 1 - i).succ by omega]

theorem State.foldl_addContribution_succ {n : Nat} {l : List Nat} (hl : ∀ i ∈ l, i < n) (acc : BitVec 16) :
    l.foldl (s.addContribution (n + 1)) (crcShift acc) = crcShift (l.foldl (s.addContribution n) acc) := by
  induction l generalizing acc with
  | nil => rfl
  | cons i l ih =>
    obtain ⟨hi, hl⟩ := List.forall_mem_cons.mp hl
    rw [List.foldl_cons, List.foldl_cons, s.addContribution_succ hi, ih hl]

theorem State.cs_eq_foldl (n : Nat) : s.cs n = (List.range n).foldl (s.addContribution n) 0 := by
  induction n with
  | zero => rfl
  | succ n ih =>
    have shifted := s.foldl_addContribution_succ (fun i => List.mem_range.mp) (n := n) 0
    rw [crcShift_zero, ← ih] at shifted
    rw [List.range_succ, List.foldl_append, shifted, List.foldl_cons, List.foldl_nil, s.addContribution_last, State.cs]

end accumulator

/-- Settles O35: the sum is `addContribution`'s, over the bits in ascending order. -/
theorem checksumIsSumOfContributions : Obligations.ChecksumIsSumOfContributions :=
  ⟨State.cs_eq_foldl, iterate_crcShift_ne_zero⟩

/-- A flipped bit changes the accumulator by its contribution, `k` steps later. -/
theorem State.cs_of_flip {s s' : State} {i : Nat} (k : Nat)
    (hF : ∀ j < i + 1 + k, s'.F j = if j = i then !s.F j else s.F j) :
    s'.cs (i + 1 + k) = s.cs (i + 1 + k) ^^^ crcShift^[k] 0x00A0 := by
  induction k with
  | zero =>
    have before : s'.cs i = s.cs i := State.cs_congr i fun j hj => (hF j (by omega)).trans (if_neg hj.ne)
    have flipped : s'.F i = !s.F i := (hF i (by omega)).trans (if_pos rfl)
    exact (congrArg₂ crcStep before flipped).trans (crcStep_not _ _)
  | succ k ih =>
    have same : s'.F (i + 1 + k) = s.F (i + 1 + k) := (hF _ (by omega)).trans (if_neg (by omega))
    calc s'.cs (i + 1 + k + 1)
      _ = crcStep (s'.cs (i + 1 + k)) (s'.F (i + 1 + k)) := rfl
      _ = crcStep (s.cs (i + 1 + k) ^^^ crcShift^[k] 0x00A0) (s.F (i + 1 + k)) := by
        rw [ih fun j hj => hF j (by omega), same]
      _ = s.cs (i + 1 + k + 1) ^^^ crcShift^[k + 1] 0x00A0 := by
        rw [crcStep_xor_left, Function.iterate_succ_apply', State.cs]

theorem State.cs_eq_zero {s : State} {n : Nat} (hF : ∀ j < n, s.F j = false) : s.cs n = 0 := by
  induction n with
  | zero => rfl
  | succ n ih =>
    rw [State.cs, ih fun j hj => hF j (by omega), hF n (by omega)]
    exact crcShift_zero

/-! ### The check field -/

theorem State.check_eq (s : State) : s.check = s.BR 792 8 * 256 + s.BR 800 8 := rfl

theorem State.check_of_lt_808 {s : State} (h : s.N < 808) : s.check = s.BR 792 8 * 256 := by
  rw [State.check_eq, s.BR_out 800 8 h, Nat.add_zero]

theorem State.check_of_lt_800 {s : State} (h : s.N < 800) : s.check = 0 := by
  rw [State.check_of_lt_808 (by omega), s.BR_out 792 8 h, Nat.zero_mul]

/-- A read depends on the bits of its own span only, in range and out of range. -/
theorem State.BR_congr_of_span {s s' : State} {off w : Nat} (hN : s'.N = s.N)
    (hF : off + w ≤ s.N → ∀ j < w, s'.F (off + j) = s.F (off + j)) : s'.BR off w = s.BR off w := by
  rcases Nat.lt_or_ge s.N (off + w) with h | h
  · rw [s.BR_out off w h, s'.BR_out off w (hN ▸ h)]
  · rw [s.BR_in off w h, s'.BR_in off w (hN ▸ h), State.gather_congr off w 0 (hF h)]

theorem State.BR_eq_zero {s : State} (hF : ∀ j < s.N, s.F j = false) (off w : Nat) : s.BR off w = 0 := by
  rcases Nat.lt_or_ge s.N (off + w) with h | h
  · exact s.BR_out off w h
  · refine (State.BR_eq_sum h).trans (Finset.sum_eq_zero fun j hj => ?_)
    have hj := Finset.mem_range.mp hj
    rw [hF (off + j) (by omega), Bool.toNat_false, Nat.zero_mul]

/-! ### CRCOK -/

/-- The response fixes the value an operation answers. -/
theorem Answers.val_unique {i : Instr} {s : State} {val val' : Int} {str str' err err' : Str} (h : Answers i s val str err)
    (h' : Answers i s val' str' err') : val = val' := by
  obtain ⟨t, r, he, hr, hv, -⟩ := h
  obtain ⟨t', r', he', hr', hv', -⟩ := h'
  cases he.symm.trans he'
  cases hr.symm.trans hr'
  exact hv.symm.trans hv'

theorem State.crcVerdict_of_not_m10 {s : State} (h : s.sondeType = .unknown ∨ s.sondeType = .meteomodemUnknown ∨
    s.sondeType = .meteomodemM2K2 ∨ s.sondeType = .vaisalaRS41SG) : s.crcVerdict = 0 := by
  rcases h with h | h | h | h <;> rw [State.crcVerdict, h]

section m10
variable {s : State} (h : s.sondeType = .meteomodemM10)
include h

theorem State.crcVerdict_of_m10 : s.crcVerdict = if (s.cs s.N).toNat = s.check then 1 else 0 := by
  rw [State.crcVerdict, h]
  simp only [verdict, State.crcM10, decide_eq_true_eq]

theorem answers_crcok_one (hc : (s.cs s.N).toNat = s.check) : Answers .crcok s 1 [] [] :=
  (answers_crcok s).of_val_eq ((State.crcVerdict_of_m10 h).trans (if_pos hc))

theorem answers_crcok_zero (hc : (s.cs s.N).toNat ≠ s.check) : Answers .crcok s 0 [] [] :=
  (answers_crcok s).of_val_eq ((State.crcVerdict_of_m10 h).trans (if_neg hc))

theorem answers_crcok_one_iff : Answers .crcok s 1 [] [] ↔ (s.cs s.N).toNat = s.check := by
  refine ⟨fun hone => by_contra fun hc => ?_, answers_crcok_one h⟩
  exact absurd (hone.val_unique (answers_crcok_zero h hc)) one_ne_zero

end m10

/-- Settles O32: CRCOK answers the verdict, and the check field is 0 as far as it lies beyond the frame. -/
theorem crcokAnswers : Obligations.CrcokAnswers := by
  refine fun s => ⟨fun h => ⟨answers_crcok_one h, answers_crcok_zero h, fun _ hN => ?_, fun hN => ?_⟩, fun h => ?_⟩
  · rw [answers_crcok_one_iff h, State.check_of_lt_808 hN]
  · rw [answers_crcok_one_iff h, State.check_of_lt_800 hN]
    exact BitVec.toNat_inj.symm
  · exact (answers_crcok s).of_val_eq (State.crcVerdict_of_not_m10 h)

/-- Settles O36: the check field keeps its value and the accumulator changes by a contribution, which is not 0. -/
theorem singleBitFlipIsDetected : Obligations.SingleBitFlipIsDetected := by
  intro s s' i h h' hn hi hout hF hone
  have hN : s'.N = s.N := State.N_congr hn
  have outside (j : Nat) (hj : j < s.N) (hne : j ≠ i) : s'.F j = s.F j := (hF j hj).trans (if_neg hne)
  have hcheck : s'.check = s.check := by
    rw [State.check_eq, State.check_eq,
      State.BR_congr_of_span hN fun hle j hj => outside (792 + j) (by omega) (by omega),
      State.BR_congr_of_span hN fun hle j hj => outside (800 + j) (by omega) (by omega)]
  obtain ⟨k, hk⟩ := Nat.exists_eq_add_of_le (show i + 1 ≤ s.N from hi)
  have hcs : s'.cs s.N = s.cs s.N ^^^ crcShift^[k] 0x00A0 := hk ▸ State.cs_of_flip k (hk ▸ hF)
  have hverifies := (answers_crcok_one_iff h).mp hone
  refine answers_crcok_zero h' fun hverifies' => iterate_crcShift_ne_zero k ?_
  rw [hN, hcheck, ← hverifies, BitVec.toNat_inj, hcs] at hverifies'
  exact (BitVec.xor_right_inj _).mp (hverifies'.trans BitVec.xor_zero.symm)

/-- Settles O37: of a frame without a one bit both the accumulator and the check field are 0. -/
theorem zeroFrameVerifies : Obligations.ZeroFrameVerifies := by
  refine fun s h hF => answers_crcok_one h ?_
  rw [State.cs_eq_zero hF, State.check_eq, State.BR_eq_zero hF, State.BR_eq_zero hF]
  rfl

end Sys2Proof.Machine

/-!
The facade, LENGTH, ISVALID, RECVAT and SYMFMT (`45_packet_facade.md`). Of hexadecimal text one lemma says that a digit spells
its value and one where a byte's two digits stand in a dump; of runs, that what is no CONSTRUCT keeps the `TS` that RECVAT
passes through.
-/
namespace Sys2Proof.Machine

/-! ### LENGTH, ISVALID and RECVAT -/

/-- Settles O38: LENGTH answers `N`. -/
theorem lengthAnswers : Obligations.LengthAnswers := fun _ => answers_of_respond rfl

/-- Settles O39: ISVALID answers a constant. -/
theorem isvalidAnswers : Obligations.IsvalidAnswers := fun _ => answers_of_respond rfl

theorem exec_recvat (s : State) : exec .recvat s = .next (s.respond s.ts 0 [] []) := rfl

/-- Settles O40: RECVAT answers with `TS` in the place of the free `ts`. -/
theorem recvatAnswers : Obligations.RecvatAnswers := fun s =>
  ⟨_, _, exec_recvat s, rfl, rfl, rfl, rfl, rfl, s.respond_onlyResponse s.ts 0 [] []⟩

/-- An operation code other than 0 leaves `TS` as it is (`10_state.md` R14). -/
theorem step_keeps_ts {s t : State} {r : Request} {rest : List Request} (hp : s.pending = r :: rest)
    (hop : fieldOp r.word ≠ 0) (h : step s = .next t) : t.ts = s.ts := by
  obtain ⟨-, -, hts, -⟩ := step_sameInputs hp hop h
  exact hts

/-- A CONSTRUCT on the port leaves its timestamp in `TS` (`42_format_dispatch.md` R61). -/
theorem exists_step_of_construct {s : State} {hint : BitVec 3} {v : Timestamp} {rest : List Request}
    (hp : s.pending = encode (.construct hint v) :: rest) : ∃ t, step s = .next t ∧ t.pending = rest ∧ t.ts = v :=
  ⟨_, (step_of_decode_ok hp (decodeEncodeRoundTrip (.construct hint v) rfl)).trans (exec_construct hint v _), rfl, rfl⟩

/-- A RECVAT on the port is answered with `TS` (`45_packet_facade.md` R103). -/
theorem exists_step_of_recvat {s : State} {rest : List Request} (hp : s.pending = encode .recvat :: rest) :
    ∃ t r, step s = .next t ∧ t.pending = rest ∧ t.resp = some r ∧ r.ts = s.ts :=
  ⟨_, _, (step_of_decode_ok hp (decodeEncodeRoundTrip .recvat rfl)).trans (exec_recvat _), rfl, rfl, rfl⟩

/-- Settles O41: CONSTRUCT latches the timestamp, the run up to RECVAT keeps it, and RECVAT answers it. -/
theorem recvatReturnsLastConstruct : Obligations.RecvatReturnsLastConstruct := by
  intro s hint v between hbetween hp
  obtain ⟨t, hconstruct, hpt, hts⟩ := exists_step_of_construct hp
  obtain ⟨u, hpu, hus, hrun⟩ := exists_run_of_pending (P := fun u => u.ts = v) (Q := fun r => fieldOp r.word ≠ 0)
    (fun _ _ _ _ hp hop hstep hs => (step_keeps_ts hp hop hstep).trans hs) hpt hbetween hts
  obtain ⟨w, r, hrecvat, hpw, hresp, hr⟩ := exists_step_of_recvat hpu
  have hcompletes : Host.Core.run Sys2Proof.core (between.length + 2) s = .next w :=
    calc Host.Core.run Sys2Proof.core (between.length + 2) s
      _ = Host.Core.run Sys2Proof.core (between.length + 1) t := run_of_step _ hconstruct
      _ = Host.Core.run Sys2Proof.core 1 u := hrun 1
      _ = .next w := run_one_of_step hrecvat
  exact ⟨w, r, hcompletes, hpw, hresp, hr.trans hus⟩

/-! ### Hexadecimal text -/

theorem hexValue_hexdigit : ∀ d < 16, hexValue (hexdigit d) = d := by decide

/-- One of the characters `0..9` and `A..F` (`45_packet_facade.md` R105). -/
abbrev IsHexDigit (c : Byte) : Prop := (0x30 ≤ c.toNat ∧ c.toNat ≤ 0x39) ∨ (0x41 ≤ c.toNat ∧ c.toNat ≤ 0x46)

theorem hexdigit_isHexDigit : ∀ d < 16, IsHexDigit (hexdigit d) := by decide

section hex2
variable (b : Byte)

theorem hex2_length : (hex2 b).length = 2 := rfl

theorem hex2_isHexDigit : ∀ c ∈ hex2 b, IsHexDigit c := by
  have hb := b.isLt
  exact List.forall_mem_cons.mpr ⟨hexdigit_isHexDigit _ (by omega),
    List.forall_mem_singleton.mpr (hexdigit_isHexDigit _ (by omega))⟩

/-- The two digits of a byte spell it. -/
theorem ofNat_hexValue_hex2 :
    BitVec.ofNat 8 (16 * hexValue (hexdigit (b.toNat / 16)) + hexValue (hexdigit (b.toNat % 16))) = b := by
  have hb := b.isLt
  rw [hexValue_hexdigit _ (by omega), hexValue_hexdigit _ (by omega), Nat.div_add_mod, BitVec.ofNat_toNat, BitVec.setWidth_eq]

end hex2

theorem flatMap_hex2_length (bytes : List Byte) : (bytes.flatMap hex2).length = 2 * bytes.length := by
  induction bytes with
  | nil => rfl
  | cons b bytes ih => rw [List.flatMap_cons, List.length_append, ih, List.length_cons, Nat.mul_succ, Nat.add_comm, hex2_length]

/-- Two characters are dropped with each byte. -/
theorem drop_flatMap_hex2 (bytes : List Byte) (k : Nat) : (bytes.flatMap hex2).drop (2 * k) = (bytes.drop k).flatMap hex2 := by
  induction k generalizing bytes with
  | zero => rfl
  | succ k ih =>
    cases bytes with
    | nil => rfl
    | cons b bytes => exact ih bytes

/-! ### The dump -/

section sym
variable (s : State)

theorem State.sym_eq_flatMap : s.sym = ((List.range (s.N / 8)).map s.D).flatMap hex2 := by
  rw [List.flatMap_map, State.sym]

theorem State.sym_length : s.sym.length = 2 * (s.N / 8) := by
  rw [State.sym_eq_flatMap, flatMap_hex2_length, List.length_map, List.length_range]

theorem State.sym_isHexDigit : ∀ c ∈ s.sym, IsHexDigit c := by
  intro c hc
  obtain ⟨k, -, hk⟩ := List.mem_flatMap.mp hc
  exact hex2_isHexDigit (s.D k) c hk

variable {s} {k : Nat} (hk : k < s.N / 8)
include hk

/-- From character `2k` on, the dump is the two digits of byte `k`, then the rest. -/
theorem State.exists_drop_sym : ∃ rest, s.sym.drop (2 * k) = hex2 (s.D k) ++ rest := by
  have hlen : k < ((List.range (s.N / 8)).map s.D).length := by simpa using hk
  rw [State.sym_eq_flatMap, drop_flatMap_hex2, List.drop_eq_getElem_cons hlen, List.flatMap_cons, List.getElem_map,
    List.getElem_range]
  exact ⟨_, rfl⟩

/-- A shown byte lies within the frame, so its descrambled form is the raw byte under the mask (`45_packet_facade.md` R104). -/
theorem State.D_eq_byte_xor :
    s.D k = BitVec.ofNat 8 (s.byte k) ^^^ s.mask[(k + 4) % 64]'(Nat.mod_lt _ (by decide)) := by
  rw [← State.rawByte_toNat (by omega), BitVec.ofNat_toNat, BitVec.setWidth_eq]
  rfl

end sym

/-- Settles O42: SYMFMT answers the dump, and each pair of its characters is the two digits of a descrambled byte. -/
theorem symfmtAnswers : Obligations.SymfmtAnswers := by
  refine fun s => ⟨s.sym, answers_of_respond rfl, s.sym_length, fun k hk => ?_, s.sym_isHexDigit⟩
  obtain ⟨rest, hrest⟩ := State.exists_drop_sym hk
  rw [hrest, ← State.D_eq_byte_xor hk]
  rfl

/-- Settles O43: the pair spells the descrambled byte, and descrambling that again gives the raw byte. -/
theorem dumpLosesNothing : Obligations.DumpLosesNothing := by
  intro s k hk
  obtain ⟨rest, hrest⟩ := State.exists_drop_sym hk
  refine ⟨hexdigit ((s.D k).toNat / 16), hexdigit ((s.D k).toNat % 16), ?hi, ?lo, ?raw⟩
  case hi => rw [← Nat.add_zero (2 * k), ← List.getElem?_drop, hrest]; rfl
  case lo => rw [← List.getElem?_drop, hrest]; rfl
  case raw =>
    rw [ofNat_hexValue_hex2, State.D, State.descramble_descramble]
    exact State.rawByte_toNat (by omega)

end Sys2Proof.Machine

/-!
Exceptions (`60_exceptions.md`): the block raises none, and each of the three kinds of step answers a next state.
-/

namespace Sys2Proof.Machine

/-- Settles O46: a step waits, executes an operation, which completes, or answers a reserved code. -/
theorem everyStepCompletes : Obligations.EveryStepCompletes := step_completes

end Sys2Proof.Machine

/-!
Reset and the host's binding of a frame (`70_reset_and_hazards.md`). Clipping keeps a byte's bits below `N` and no other; what a
bound frame reads and that its cells hold no bit at or beyond `N` follow. Between reset and the first CONSTRUCT the type is
`Unknown` whatever frame is bound, so the operations answer as for an unsupported type (R117).
-/
namespace Sys2Proof.Machine

/-! ### Clipping -/

theorem clipByte_getMsbD (n k : Nat) (b : Byte) {j : Nat} (hj : j < 8) :
    (clipByte n k b).getMsbD j = (b.getMsbD j && decide (8 * k + j < n)) := by
  have hmask : (0xFF#8 <<< (8 - (n - 8 * k))).getMsbD j = decide (8 * k + j < n) := by
    rw [BitVec.getMsbD_shiftLeft, show 0xFF#8 = BitVec.allOnes 8 from rfl, BitVec.getMsbD_allOnes, decide_eq_decide]
    omega
  rw [clipByte, BitVec.getMsbD_and, hmask]

@[simp] theorem clipByte_zero (n k : Nat) : clipByte n k 0 = 0 := BitVec.zero_and

/-- A cell that binding leaves is a clipped byte or was there before. -/
theorem mem_loadBytes {n : Nat} {m : Memory} {k : Nat} {bytes : List Byte} {c : Host.Cell} (h : c ∈ loadBytes n m k bytes) :
    (∃ b, c.2 = clipByte n c.1 b) ∨ c ∈ m := by
  induction bytes generalizing m k with
  | nil => exact .inr h
  | cons b rest ih =>
    obtain hclip | hwrite := ih h
    · exact .inl hclip
    · obtain ⟨rfl, -⟩ | hm := Memory.mem_write hwrite
      · exact .inl ⟨b, rfl⟩
      · exact .inr hm

/-! ### The bound frame -/

section bindFrame
variable (s : State) (n : BitVec 32) (bytes : List Byte)

@[simp] theorem State.bindFrame_N : (s.bindFrame n bytes).N = n.toNat := rfl

/-- A bound frame reads the byte handed over, clipped; past the last one, 0. -/
theorem State.read_bindFrame (a : Nat) :
    Memory.read (s.bindFrame n bytes).mem a = clipByte n.toNat a (bytes.getD a 0) := by
  rw [State.bindFrame_mem, loadBytes_read n.toNat [] 0 bytes a State.reset_mem_wf]
  split
  · rw [Nat.sub_zero]
  · rw [List.getD_eq_default _ _ (by omega), clipByte_zero]
    rfl

theorem State.F_bindFrame (i : Nat) :
    (s.bindFrame n bytes).F i = ((bytes.getD (i / 8) 0).getMsbD (i % 8) && decide (i < n.toNat)) := by
  rw [State.F, State.read_bindFrame, clipByte_getMsbD _ _ _ (Nat.mod_lt i (by decide)), Nat.div_add_mod]

theorem State.bindFrame_frameClipped : FrameClipped (s.bindFrame n bytes) := by
  intro c hc j hj hbit
  obtain ⟨b, hb⟩ | hnil := mem_loadBytes hc
  · rw [hb, clipByte_getMsbD _ _ _ hj, Bool.and_eq_true] at hbit
    exact of_decide_eq_true hbit.2
  · cases hnil

end bindFrame

/-- Settles O51: a bit below `N` is the handed-over byte's, and the cells are canonical and clipped. -/
theorem bindFrameGivesTheBits : Obligations.BindFrameGivesTheBits := by
  refine fun s n bytes => ⟨s.bindFrame_N n bytes, fun i hi => ?_, s.bindFrame_mem_wf n bytes, s.bindFrame_frameClipped n bytes,
    s.bindFrame_sondeType n bytes, s.bindFrame_ts n bytes⟩
  rw [State.F_bindFrame, decide_eq_true hi, Bool.and_true]

/-! ### Before the first CONSTRUCT -/

/-- Settles O45: binding keeps reset's type `Unknown`, an unsupported one. -/
theorem beforeConstruct : Obligations.BeforeConstruct := by
  rintro n bytes s rfl
  have htype : (State.reset.bindFrame n bytes).sondeType = .unknown := State.bindFrame_sondeType _ n bytes
  obtain ⟨halt, hlat, hlon, hvbat, hserial, hcrcok⟩ := unsupportedTypeDefaults _ (.inl htype)
  exact ⟨lengthAnswers _, isvalidAnswers _, answers_type htype, halt, hlat, hlon, hvbat, hcrcok, hserial, answers_of_respond rfl,
    State.typeString_of_unsupported (.inl htype) ▸ answers_typestr _⟩

end Sys2Proof.Machine
